-- ==== Sys2Proof/Word.lean ====
section
/-! DEFINITION. The word types of the machine: bytes, 16-bit words, 12-bit cell addresses, nibbles. -/

namespace Sys2Proof

/-- An 8-bit value: a general register, a timer, a memory cell (10_state.md R12, R18, R20). -/
abbrev Byte := BitVec 8

/-- A 16-bit value: PC, I, a stack entry, an opcode (10_state.md R14, R15, R16; 30_encoding.md R51). -/
abbrev Word := BitVec 16

/-- A 12-bit literal `NNN` or cell address (30_encoding.md R52; 20_memory.md R35). -/
abbrev Addr := BitVec 12

/-- A 4-bit field of an opcode (00_scope.md R10, "Nibble"). -/
abbrev Nibble := BitVec 4

/-- The index of a general register: the value of a field X or Y, 0..15 (30_encoding.md R52). -/
abbrev RegIx := BitVec 4

end Sys2Proof
end

