-- ==== Sys2Proof/Config.lean ====
section
/-! DEFINITION. What an implementation fixes (00_scope.md R6): the sizes and bases, the options and the font with their
defaults, and the two values the spec leaves open, as constants without a body. -/

namespace Sys2Proof
namespace Config

/-- `MEM_SIZE` (R6). -/
abbrev memSize : Nat := 4096

/-- `PROG_BASE`, the entry point and ROM load address (R6). -/
abbrev progBase : Nat := 0x200

/-- `ROM_MAX`, the largest ROM in bytes (R6). -/
abbrev romMax : Nat := 3584

/-- `FONT_BASE` (R6). -/
abbrev fontBase : Nat := 0x050

/-- `FONT_SIZE`: 16 glyphs of 5 bytes (R6). -/
abbrev fontSize : Nat := 80

/-- `STACK_DEPTH` (R6). -/
abbrev stackDepth : Nat := 16

/-- `DISP_W` (R6). -/
abbrev dispW : Nat := 64

/-- `DISP_H` (R6). -/
abbrev dispH : Nat := 32

/-- `NKEYS` (R6). -/
abbrev nKeys : Nat := 16

/-- `TIMER_HZ`, the nominal tick rate; no rule depends on it (R6, 70_reset_and_hazards.md R146). -/
abbrev timerHz : Nat := 60

/-- The parameter `FONT`: 80 bytes (10_state.md R27). -/
abbrev Font := Vector Byte fontSize

/-- The rows of the default glyphs 0 to 7, as 10_state.md R27 tabulates them.
PRESUMED (log 15): the spec takes the default from general knowledge. -/
def glyphs0to7 : List Byte :=
  [0xF0, 0x90, 0x90, 0x90, 0xF0] ++ [0x20, 0x60, 0x20, 0x20, 0x70] ++
  [0xF0, 0x10, 0xF0, 0x80, 0xF0] ++ [0xF0, 0x10, 0xF0, 0x10, 0xF0] ++
  [0x90, 0x90, 0xF0, 0x10, 0x10] ++ [0xF0, 0x80, 0xF0, 0x10, 0xF0] ++
  [0xF0, 0x80, 0xF0, 0x90, 0xF0] ++ [0xF0, 0x10, 0x20, 0x40, 0x40]

/-- The rows of the default glyphs 8 to F (10_state.md R27). PRESUMED (log 15). -/
def glyphs8toF : List Byte :=
  [0xF0, 0x90, 0xF0, 0x90, 0xF0] ++ [0xF0, 0x90, 0xF0, 0x10, 0xF0] ++
  [0xF0, 0x90, 0xF0, 0x90, 0x90] ++ [0xE0, 0x90, 0xE0, 0x90, 0xE0] ++
  [0xF0, 0x80, 0x80, 0x80, 0xF0] ++ [0xE0, 0x90, 0x90, 0x90, 0xE0] ++
  [0xF0, 0x80, 0xF0, 0x80, 0xF0] ++ [0xF0, 0x80, 0xF0, 0x80, 0x80]

/-- The default of `FONT` (10_state.md R27). Unsafe where a claim reads it (log 15); the font is a field of
`Options`, so a claim over every state holds for every font. -/
def defaultFont : Font := ⟨(glyphs0to7 ++ glyphs8toF).toArray, by decide⟩

/-- The host's configuration of a run (00_scope.md R3, R6; 10_state.md R28): the five one-bit options and the
parameter `FONT`. No instruction reads it as a value and nothing changes it. -/
structure Options where
  /-- `Q_VF_RESET`: 8XY1, 8XY2 and 8XY3 write VF ← 0. -/
  vfReset : Bool
  /-- `Q_SHIFT_COPY`: 8XY6 and 8XYE shift Vy. -/
  shiftCopy : Bool
  /-- `Q_MEM_INC_I`: FX55 and FX65 add X + 1 to I. -/
  memIncI : Bool
  /-- `Q_I_OVERFLOW`: FX1E writes an overflow flag into VF. -/
  iOverflow : Bool
  /-- `Q_DISPLAY_WRAP`: 0 clips at the right and bottom edges, 1 wraps. -/
  displayWrap : Bool
  /-- `FONT`. -/
  font : Font
  deriving DecidableEq, Repr

/-- The defaults of R6 (decision D9; log 7). -/
def Options.default : Options where
  vfReset := true
  shiftCopy := true
  memIncI := true
  iOverflow := false
  displayWrap := false
  font := defaultFont

/-- `P_UNDERFLOW_SENTINEL`, the value RET writes into PC when the stack is empty: OPEN in the spec (R6, decision D8).
DESIGN CHOICE (log 6), safe: a constant without a body, so nothing can be proved of its value. -/
opaque underflowSentinel : Word

/-- The n-th random byte of a run whose schedule does not supply one: "any value" (40_cycle.md R69, decision D18).
DESIGN CHOICE (log 13), safe: a function without a body. -/
opaque randByte : Nat → Byte

end Config
end Sys2Proof
end

