-- ==== Sys2Proof/Syntax.lean ====
section
/-! DEFINITION. The instructions: one constructor per row of spec/opcode_table.json (30_encoding.md R55).
A field `ign` holds the nibble the decoder ignores (R56, R57): it changes no effect, but a diagnostic reports the
whole word (60_exceptions.md R122), so the instruction keeps it. -/

namespace Sys2Proof

inductive Instr where
  /-- 00E0, `CLS` (41_display_control.md R75); `ign` is op[11:8]. -/
  | cls (ign : Nibble)
  /-- 00EE, `RET` (R76); `ign` is op[11:8]. -/
  | ret (ign : Nibble)
  /-- 1NNN, `JP addr` (R77). -/
  | jp (nnn : Addr)
  /-- 2NNN, `CALL addr` (R78). -/
  | call (nnn : Addr)
  /-- 3XNN, `SE Vx, byte` (42_skip.md R80). -/
  | seImm (x : RegIx) (nn : Byte)
  /-- 4XNN, `SNE Vx, byte` (R81). -/
  | sneImm (x : RegIx) (nn : Byte)
  /-- 5XYN, `SE Vx, Vy` (R82); `ign` is op[3:0]. -/
  | seReg (x y : RegIx) (ign : Nibble)
  /-- 6XNN, `LD Vx, byte` (43_alu.md R85). -/
  | ldImm (x : RegIx) (nn : Byte)
  /-- 7XNN, `ADD Vx, byte` (R86). -/
  | addImm (x : RegIx) (nn : Byte)
  /-- 8XY0, `LD Vx, Vy` (R88). -/
  | ldReg (x y : RegIx)
  /-- 8XY1, `OR Vx, Vy` (R89). -/
  | orReg (x y : RegIx)
  /-- 8XY2, `AND Vx, Vy` (R90). -/
  | andReg (x y : RegIx)
  /-- 8XY3, `XOR Vx, Vy` (R91). -/
  | xorReg (x y : RegIx)
  /-- 8XY4, `ADD Vx, Vy` (R92). -/
  | addReg (x y : RegIx)
  /-- 8XY5, `SUB Vx, Vy` (R93). -/
  | sub (x y : RegIx)
  /-- 8XY6, `SHR Vx, Vy` (R94). -/
  | shr (x y : RegIx)
  /-- 8XY7, `SUBN Vx, Vy` (R95). -/
  | subn (x y : RegIx)
  /-- 8XYE, `SHL Vx, Vy` (R96). -/
  | shl (x y : RegIx)
  /-- 9XYN, `SNE Vx, Vy` (42_skip.md R83); `ign` is op[3:0]. -/
  | sneReg (x y : RegIx) (ign : Nibble)
  /-- ANNN, `LD I, addr` (45_index_memory.md R105). -/
  | ldI (nnn : Addr)
  /-- BNNN, `JP V0, addr` (41_display_control.md R79). -/
  | jpV0 (nnn : Addr)
  /-- CXNN, `RND Vx, byte` (44_rand_keys_timers.md R98). -/
  | rnd (x : RegIx) (nn : Byte)
  /-- DXYN, `DRW Vx, Vy, nibble` (46_draw.md R111). -/
  | drw (x y : RegIx) (n : Nibble)
  /-- EX9E, `SKP Vx` (44_rand_keys_timers.md R99). -/
  | skp (x : RegIx)
  /-- EXA1, `SKNP Vx` (R100). -/
  | sknp (x : RegIx)
  /-- FX07, `LD Vx, DT` (R101). -/
  | ldVxDt (x : RegIx)
  /-- FX0A, `LD Vx, K` (R102). -/
  | ldVxK (x : RegIx)
  /-- FX15, `LD DT, Vx` (R103). -/
  | ldDtVx (x : RegIx)
  /-- FX18, `LD ST, Vx` (R104). -/
  | ldStVx (x : RegIx)
  /-- FX1E, `ADD I, Vx` (45_index_memory.md R106). -/
  | addI (x : RegIx)
  /-- FX29, `LD F, Vx` (R107). -/
  | ldF (x : RegIx)
  /-- FX33, `LD B, Vx` (R108). -/
  | ldB (x : RegIx)
  /-- FX55, `LD [I], Vx` (R109). -/
  | stRegs (x : RegIx)
  /-- FX65, `LD Vx, [I]` (R110). -/
  | ldRegs (x : RegIx)
  deriving DecidableEq, Repr

end Sys2Proof
end

