-- ==== Sys2Proof/WellFormed.lean ====
section
/-! DEFINITION. The checks on what the machine is given, each a Bool: an opcode word that is some instruction
(30_encoding.md R58), an instruction that the assembler syntax can spell (R61), a ROM that fits and an address a load
may write (20_memory.md R40).

The bounds of an instruction's own fields (R52) are the types of the fields, so no `Instr` is out of range:
`Instr.wellFormed` says so. -/

namespace Sys2Proof

/-- The spec's table of unknown encodings (30_encoding.md R58), read as a check: true exactly when the table does not list
the word. Written from R58 alone; the decoder is written from R54 and R55. -/
def knownWord (op : Word) : Bool :=
  let nn := op.extractLsb' 0 8
  let n := op.extractLsb' 0 4
  match (op.extractLsb' 12 4).toNat with
  | 0x0 => nn == 0xE0#8 || nn == 0xEE#8
  | 0x8 => !(n == 0x8#4 || n == 0x9#4 || n == 0xA#4 || n == 0xB#4 || n == 0xC#4 || n == 0xD#4 || n == 0xF#4)
  | 0xE => nn == 0x9E#8 || nn == 0xA1#8
  | 0xF => nn == 0x07#8 || nn == 0x0A#8 || nn == 0x15#8 || nn == 0x18#8 || nn == 0x1E#8 || nn == 0x29#8 ||
      nn == 0x33#8 || nn == 0x55#8 || nn == 0x65#8
  | _ => true

/-- Every value of the fields of R52 is one the encoding admits (R53: X, Y, N in 0..15, NN in 0..255, NNN in
0..0xFFF; R117: N = 0 is legal), and the fields' types hold no other. -/
def Instr.wellFormed (_ : Instr) : Bool := true

/-- The instruction has a spelling in the assembler syntax of R61, which names no ignored nibble: that nibble is 0. -/
def Instr.canonical : Instr → Bool
  | .cls ign | .ret ign | .seReg _ _ ign | .sneReg _ _ ign => ign == 0#4
  | .jp _ | .call _ | .seImm _ _ | .sneImm _ _ | .ldImm _ _ | .addImm _ _ | .ldReg _ _ | .orReg _ _ | .andReg _ _
  | .xorReg _ _ | .addReg _ _ | .sub _ _ | .shr _ _ | .subn _ _ | .shl _ _ | .ldI _ | .jpV0 _ | .rnd _ _
  | .drw _ _ _ | .skp _ | .sknp _ | .ldVxDt _ | .ldVxK _ | .ldDtVx _ | .ldStVx _ | .addI _ | .ldF _ | .ldB _
  | .stRegs _ | .ldRegs _ => true

/-- A ROM the Loader may write: at most `ROM_MAX` bytes (20_memory.md R40). -/
def romFits (rom : List Byte) : Bool := decide (rom.length ≤ Config.romMax)

/-- An address with a memory cell behind it: below 4096 (20_memory.md R34). A load elsewhere belongs to no ROM that
fits and is refused (93_implementation_defined.md U18; log 17). -/
def loadable (addr : Word) : Bool := decide (addr.toNat < Config.memSize)

end Sys2Proof
end

