-- ==== Sys2Proof/Decode.lean ====
section
/-! DEFINITION. The decoder, total on any bytes and rejecting by name (30_encoding.md R54-R58, R62), and after it the
encoder, both written from the opcode map of R55. -/

namespace Sys2Proof

/-- Why bytes are no instruction. -/
inductive Reject where
  /-- A family-0 word other than ?E0 and ?EE (R57). -/
  | unknownFamily0 (op : Word)
  /-- A family-8 word with a low nibble of R58's list. -/
  | unknownFamily8 (op : Word)
  /-- A family-E word other than X9E and XA1. -/
  | unknownFamilyE (op : Word)
  /-- A family-F word whose low byte selects nothing. -/
  | unknownFamilyF (op : Word)
  /-- Fewer than two bytes: no word at all (R51). -/
  | truncated
  deriving DecidableEq, Repr

/-- `F` = op[15:12], the family (R52). -/
def fieldF (op : Word) : Nibble := op.extractLsb' 12 4

/-- `X` = op[11:8] (R52). -/
def fieldX (op : Word) : RegIx := op.extractLsb' 8 4

/-- `Y` = op[7:4] (R52). -/
def fieldY (op : Word) : RegIx := op.extractLsb' 4 4

/-- `N` = op[3:0] (R52). -/
def fieldN (op : Word) : Nibble := op.extractLsb' 0 4

/-- `NN` = op[7:0] (R52). -/
def fieldNN (op : Word) : Byte := op.extractLsb' 0 8

/-- `NNN` = op[11:0] (R52). -/
def fieldNNN (op : Word) : Addr := op.extractLsb' 0 12

/-- Family 0 selects by the low byte alone (R54, R57). -/
def decodeFamily0 (op : Word) : Except Reject Instr :=
  match (fieldNN op).toNat with
  | 0xE0 => .ok (.cls (fieldX op))
  | 0xEE => .ok (.ret (fieldX op))
  | _ => .error (.unknownFamily0 op)

/-- Family 8 selects by the low nibble (R54). -/
def decodeFamily8 (op : Word) : Except Reject Instr :=
  match (fieldN op).toNat with
  | 0x0 => .ok (.ldReg (fieldX op) (fieldY op))
  | 0x1 => .ok (.orReg (fieldX op) (fieldY op))
  | 0x2 => .ok (.andReg (fieldX op) (fieldY op))
  | 0x3 => .ok (.xorReg (fieldX op) (fieldY op))
  | 0x4 => .ok (.addReg (fieldX op) (fieldY op))
  | 0x5 => .ok (.sub (fieldX op) (fieldY op))
  | 0x6 => .ok (.shr (fieldX op) (fieldY op))
  | 0x7 => .ok (.subn (fieldX op) (fieldY op))
  | 0xE => .ok (.shl (fieldX op) (fieldY op))
  | _ => .error (.unknownFamily8 op)

/-- Family E selects by the low byte (R54). -/
def decodeFamilyE (op : Word) : Except Reject Instr :=
  match (fieldNN op).toNat with
  | 0x9E => .ok (.skp (fieldX op))
  | 0xA1 => .ok (.sknp (fieldX op))
  | _ => .error (.unknownFamilyE op)

/-- Family F selects by the low byte (R54). -/
def decodeFamilyF (op : Word) : Except Reject Instr :=
  match (fieldNN op).toNat with
  | 0x07 => .ok (.ldVxDt (fieldX op))
  | 0x0A => .ok (.ldVxK (fieldX op))
  | 0x15 => .ok (.ldDtVx (fieldX op))
  | 0x18 => .ok (.ldStVx (fieldX op))
  | 0x1E => .ok (.addI (fieldX op))
  | 0x29 => .ok (.ldF (fieldX op))
  | 0x33 => .ok (.ldB (fieldX op))
  | 0x55 => .ok (.stRegs (fieldX op))
  | 0x65 => .ok (.ldRegs (fieldX op))
  | _ => .error (.unknownFamilyF op)

/-- The two-level dispatch of R54 on one opcode word. The last arm is family 0xF: a nibble has no value above it. -/
def decodeWord (op : Word) : Except Reject Instr :=
  match (fieldF op).toNat with
  | 0x0 => decodeFamily0 op
  | 0x1 => .ok (.jp (fieldNNN op))
  | 0x2 => .ok (.call (fieldNNN op))
  | 0x3 => .ok (.seImm (fieldX op) (fieldNN op))
  | 0x4 => .ok (.sneImm (fieldX op) (fieldNN op))
  | 0x5 => .ok (.seReg (fieldX op) (fieldY op) (fieldN op))
  | 0x6 => .ok (.ldImm (fieldX op) (fieldNN op))
  | 0x7 => .ok (.addImm (fieldX op) (fieldNN op))
  | 0x8 => decodeFamily8 op
  | 0x9 => .ok (.sneReg (fieldX op) (fieldY op) (fieldN op))
  | 0xA => .ok (.ldI (fieldNNN op))
  | 0xB => .ok (.jpV0 (fieldNNN op))
  | 0xC => .ok (.rnd (fieldX op) (fieldNN op))
  | 0xD => .ok (.drw (fieldX op) (fieldY op) (fieldN op))
  | 0xE => decodeFamilyE op
  | _ => decodeFamilyF op

/-- `hi ++ lo`: the byte at the lower address is op[15:8] (20_memory.md R36, R39). -/
def composeWord (hi lo : Byte) : Word := hi ++ lo

/-- The first instruction of a byte sequence, and the bytes after it. -/
def decodeBytes : List Byte → Except Reject (Instr × List Byte)
  | hi :: lo :: rest =>
    match decodeWord (composeWord hi lo) with
    | .ok i => .ok (i, rest)
    | .error e => .error e
  | [_] | [] => .error .truncated

/-- The opcode word of an instruction: the row of R55 with the fields in their places (R52, formats A, B, C, Z). -/
def encode : Instr → Word
  | .cls ign => 0x0#4 ++ ign ++ 0xE0#8
  | .ret ign => 0x0#4 ++ ign ++ 0xEE#8
  | .jp nnn => 0x1#4 ++ nnn
  | .call nnn => 0x2#4 ++ nnn
  | .seImm x nn => 0x3#4 ++ x ++ nn
  | .sneImm x nn => 0x4#4 ++ x ++ nn
  | .seReg x y ign => 0x5#4 ++ x ++ y ++ ign
  | .ldImm x nn => 0x6#4 ++ x ++ nn
  | .addImm x nn => 0x7#4 ++ x ++ nn
  | .ldReg x y => 0x8#4 ++ x ++ y ++ 0x0#4
  | .orReg x y => 0x8#4 ++ x ++ y ++ 0x1#4
  | .andReg x y => 0x8#4 ++ x ++ y ++ 0x2#4
  | .xorReg x y => 0x8#4 ++ x ++ y ++ 0x3#4
  | .addReg x y => 0x8#4 ++ x ++ y ++ 0x4#4
  | .sub x y => 0x8#4 ++ x ++ y ++ 0x5#4
  | .shr x y => 0x8#4 ++ x ++ y ++ 0x6#4
  | .subn x y => 0x8#4 ++ x ++ y ++ 0x7#4
  | .shl x y => 0x8#4 ++ x ++ y ++ 0xE#4
  | .sneReg x y ign => 0x9#4 ++ x ++ y ++ ign
  | .ldI nnn => 0xA#4 ++ nnn
  | .jpV0 nnn => 0xB#4 ++ nnn
  | .rnd x nn => 0xC#4 ++ x ++ nn
  | .drw x y n => 0xD#4 ++ x ++ y ++ n
  | .skp x => 0xE#4 ++ x ++ 0x9E#8
  | .sknp x => 0xE#4 ++ x ++ 0xA1#8
  | .ldVxDt x => 0xF#4 ++ x ++ 0x07#8
  | .ldVxK x => 0xF#4 ++ x ++ 0x0A#8
  | .ldDtVx x => 0xF#4 ++ x ++ 0x15#8
  | .ldStVx x => 0xF#4 ++ x ++ 0x18#8
  | .addI x => 0xF#4 ++ x ++ 0x1E#8
  | .ldF x => 0xF#4 ++ x ++ 0x29#8
  | .ldB x => 0xF#4 ++ x ++ 0x33#8
  | .stRegs x => 0xF#4 ++ x ++ 0x55#8
  | .ldRegs x => 0xF#4 ++ x ++ 0x65#8

/-- A row of the opcode map of R55: its mask and its match. -/
abbrev Row := Word × Word

/-- `op & mask = match` (R55). -/
def rowMatches (op : Word) (r : Row) : Bool := op &&& r.1 == r.2

/-- The 34 rows of R55, in the table's order: what claims hold the decoder against. The decoder does not use it. -/
def opcodeTable : List Row :=
  [(0xF0FF, 0x00E0), (0xF0FF, 0x00EE), (0xF000, 0x1000), (0xF000, 0x2000), (0xF000, 0x3000), (0xF000, 0x4000),
    (0xF000, 0x5000), (0xF000, 0x6000), (0xF000, 0x7000)] ++
  [(0xF00F, 0x8000), (0xF00F, 0x8001), (0xF00F, 0x8002), (0xF00F, 0x8003), (0xF00F, 0x8004), (0xF00F, 0x8005),
    (0xF00F, 0x8006), (0xF00F, 0x8007), (0xF00F, 0x800E)] ++
  [(0xF000, 0x9000), (0xF000, 0xA000), (0xF000, 0xB000), (0xF000, 0xC000), (0xF000, 0xD000), (0xF0FF, 0xE09E),
    (0xF0FF, 0xE0A1)] ++
  [(0xF0FF, 0xF007), (0xF0FF, 0xF00A), (0xF0FF, 0xF015), (0xF0FF, 0xF018), (0xF0FF, 0xF01E), (0xF0FF, 0xF029),
    (0xF0FF, 0xF033), (0xF0FF, 0xF055), (0xF0FF, 0xF065)]

/-- The row of R55 an instruction stands in. -/
def Instr.row : Instr → Row
  | .cls _ => (0xF0FF, 0x00E0)
  | .ret _ => (0xF0FF, 0x00EE)
  | .jp _ => (0xF000, 0x1000)
  | .call _ => (0xF000, 0x2000)
  | .seImm _ _ => (0xF000, 0x3000)
  | .sneImm _ _ => (0xF000, 0x4000)
  | .seReg _ _ _ => (0xF000, 0x5000)
  | .ldImm _ _ => (0xF000, 0x6000)
  | .addImm _ _ => (0xF000, 0x7000)
  | .ldReg _ _ => (0xF00F, 0x8000)
  | .orReg _ _ => (0xF00F, 0x8001)
  | .andReg _ _ => (0xF00F, 0x8002)
  | .xorReg _ _ => (0xF00F, 0x8003)
  | .addReg _ _ => (0xF00F, 0x8004)
  | .sub _ _ => (0xF00F, 0x8005)
  | .shr _ _ => (0xF00F, 0x8006)
  | .subn _ _ => (0xF00F, 0x8007)
  | .shl _ _ => (0xF00F, 0x800E)
  | .sneReg _ _ _ => (0xF000, 0x9000)
  | .ldI _ => (0xF000, 0xA000)
  | .jpV0 _ => (0xF000, 0xB000)
  | .rnd _ _ => (0xF000, 0xC000)
  | .drw _ _ _ => (0xF000, 0xD000)
  | .skp _ => (0xF0FF, 0xE09E)
  | .sknp _ => (0xF0FF, 0xE0A1)
  | .ldVxDt _ => (0xF0FF, 0xF007)
  | .ldVxK _ => (0xF0FF, 0xF00A)
  | .ldDtVx _ => (0xF0FF, 0xF015)
  | .ldStVx _ => (0xF0FF, 0xF018)
  | .addI _ => (0xF0FF, 0xF01E)
  | .ldF _ => (0xF0FF, 0xF029)
  | .ldB _ => (0xF0FF, 0xF033)
  | .stRegs _ => (0xF0FF, 0xF055)
  | .ldRegs _ => (0xF0FF, 0xF065)

/-- The high byte of a word, the one at the lower address (20_memory.md R39). -/
def highByte (w : Word) : Byte := w.extractLsb' 8 8

/-- The low byte of a word. -/
def lowByte (w : Word) : Byte := w.extractLsb' 0 8

/-- The two bytes of an instruction in memory order (R51). -/
def encodeBytes (i : Instr) : List Byte := [highByte (encode i), lowByte (encode i)]

/-- The word whose bits a row of spec/opcode_table.json numbers: `w` with the bits from `nbits` up taken as 0. -/
def tableWord (nbits w : Nat) : Word := BitVec.ofNat 16 (w % 2 ^ nbits)

/-- What the decoder reads from the word `w` of the opcode table, laid out as two bytes in memory order. -/
def decodeTableWord (nbits w : Nat) : Option Instr :=
  match decodeBytes [highByte (tableWord nbits w), lowByte (tableWord nbits w)] with
  | .ok (i, _) => some i
  | .error _ => none

end Sys2Proof
end

