-- ==== Sys2Proof/Machine/State.lean ====
section
/-! DEFINITION. The machine's state as plain data (10_state.md), the reasons a step can stop, and the state after
reset (R29, R139). -/

namespace Sys2Proof
namespace Machine

/-- Why a step could stop with a fault. No constructor: the hardware has no trap and no access faults
(60_exceptions.md R121; 20_memory.md R37, R38, R45), so nobody raises one. Safe: nothing can be hidden behind it. -/
inductive Fault where
  deriving DecidableEq, Repr

/-- Why a step could be refused. -/
inductive Refusal where
  /-- Raised by an arm of `exec` whose instruction has no meaning yet, under the row's mnemonic. Safe. No arm raises
  it now. -/
  | notModelled (mnemonic : String)
  deriving DecidableEq, Repr

/-- The code of a diagnostic event (60_exceptions.md R122). -/
inductive DiagCode where
  /-- Code 1: 2NNN with SP = 16 (R123). -/
  | stackOverflow
  /-- Code 2: 00EE with SP = 0 (R124). -/
  | stackUnderflow
  /-- Code 3: a word of 30_encoding.md R58 (R125). -/
  | unknownOpcode
  deriving DecidableEq, Repr

/-- The number R122 gives a code. -/
def DiagCode.number : DiagCode → Nat
  | .stackOverflow => 1
  | .stackUnderflow => 2
  | .unknownOpcode => 3

/-- An event of the diagnostic channel: the triple of R122. -/
structure DiagEvent where
  code : DiagCode
  /-- The fetch address of the word. -/
  pc : Word
  /-- The word. -/
  opcode : Word
  deriving DecidableEq, Repr

/-- The host's transactions (10_state.md R31), each atomic. -/
inductive Transaction where
  /-- Runs the State Initializer (70_reset_and_hazards.md R139). -/
  | reset
  /-- The Loader writes one byte (20_memory.md R40). -/
  | load (addr : Word) (byte : Byte)
  /-- The Input Source writes the key lines (10_state.md R25). -/
  | keysIn (lines : Word)
  /-- The caller runs one cycle (40_cycle.md R63); `none` where this schedule leaves the caller's byte open (R69). -/
  | step (rand : Option Byte)
  /-- The Timer Driver's pulse (60_exceptions.md R132). -/
  | tick
  /-- The Presenter's acknowledgement (10_state.md R22). -/
  | redrawAck
  deriving DecidableEq, Repr

/-- The cells of `MEM` that differ from the reset content, by rising address (10_state.md R20). `Memory.wf` states
the form. -/
abbrev Memory := List Host.Cell

/-- The display as the block presents it: bit `y*64 + x` is `DISP[y][x]` (10_state.md R21). -/
abbrev Display := BitVec 2048

/-- The machine. Every field but the last two is the spec's state or input; the reset values are in
`State.reset`. -/
structure State where
  /-- `V[0..15]`; VF is `V[15]` (R12, R13). -/
  v : Vector Byte 16
  /-- `PC` (R14). -/
  pc : Word
  /-- `I` (R15). -/
  i : Word
  /-- `STACK[0..15]` (R16). -/
  stack : Vector Word 16
  /-- `SP`, 0..16 (R17). -/
  sp : Fin 17
  /-- `DT` (R18). -/
  dt : Byte
  /-- `ST` (R19). -/
  st : Byte
  /-- `MEM` (R20). -/
  mem : Memory
  /-- `DISP` (R21). -/
  disp : Display
  /-- `REDRAW` (R22). -/
  redraw : Bool
  /-- `WAIT` (R23). -/
  wait : Bool
  /-- `WAITREG` (R24). -/
  waitReg : RegIx
  /-- `KEYS[0..15]`, bit k for line k (R25). -/
  keys : Word
  /-- `DIAG`, oldest event first (R26). -/
  diag : List DiagEvent
  /-- `RAND`, the byte of the present `step` transaction; none where the caller's byte is left open (00_scope.md R8,
  40_cycle.md R69; log 13). -/
  rand : Option Byte
  /-- The options and the font, constant for a run (R28). -/
  cfg : Config.Options
  /-- Between `reset` and the first `step`: the Loader may write (20_memory.md R40; log 17). -/
  loadWindow : Bool
  /-- The host's transactions to come, next first (40_cycle.md R71; log 18). -/
  schedule : List Transaction
  /-- How many free random bytes CXNN has taken (the model's own; log 13). -/
  randCount : Nat
  deriving DecidableEq, Repr

/-- The state right after reset under the options `c` (R29, R139). Memory lists nothing: an unlisted cell reads as
reset leaves it (log 20). -/
def State.resetWith (c : Config.Options) : State where
  v := Vector.replicate 16 0x00#8
  pc := 0x0200#16
  i := 0x0000#16
  stack := Vector.replicate 16 0x0000#16
  sp := 0
  dt := 0x00#8
  st := 0x00#8
  mem := []
  disp := 0#2048
  redraw := false
  wait := false
  waitReg := 0x0#4
  keys := 0x0000#16
  diag := []
  rand := none
  cfg := c
  loadWindow := true
  schedule := []
  randCount := 0

/-- The machine right after reset, with the default options and font (00_scope.md R6; log 7, log 15). -/
def State.reset : State := State.resetWith Config.Options.default

end Machine
end Sys2Proof
end

