-- ==== Sys2Proof/Machine/Ops.lean ====
section
/-! DEFINITION. The named operations over memory and registers: the cells of `MEM`, the register file, PC and I, the
stack, the timers, the display cells, the key lines, and reporting a diagnostic event, which is all the hardware has in
the place of an exception (60_exceptions.md R121, R127). -/

namespace Sys2Proof
namespace Machine

/-! ### Memory -/

/-- What a cell that nothing has written reads as: the reset content, `FONT` at 0x050-0x09F and 0x00 elsewhere
(10_state.md R29; log 20). -/
def Memory.unlisted (font : Config.Font) (a : Nat) : Byte :=
  if h : Config.fontBase ≤ a ∧ a < Config.fontBase + Config.fontSize then
    font[a - Config.fontBase]'(by omega)
  else 0x00#8

/-- The listed byte of a cell, if it is listed. -/
def Memory.lookup : Memory → Nat → Option Byte
  | [], _ => none
  | (k, b) :: m, a => if k = a then some b else Memory.lookup m a

/-- `MEM[a]`. -/
def Memory.read (font : Config.Font) (m : Memory) (a : Nat) : Byte :=
  (m.lookup a).getD (Memory.unlisted font a)

/-- List `b` at `a`, in address order, in the place of what was listed there. -/
def Memory.put (m : Memory) (a : Nat) (b : Byte) : Memory :=
  match m with
  | [] => [(a, b)]
  | (k, c) :: m =>
    if a < k then (a, b) :: (k, c) :: m
    else if a = k then (a, b) :: m
    else (k, c) :: Memory.put m a b

/-- List nothing at `a`. -/
def Memory.forget (m : Memory) (a : Nat) : Memory := m.filter fun p => p.1 != a

/-- `MEM[a] <- b`, keeping the canonical form: the reset content is not listed. -/
def Memory.write (font : Config.Font) (m : Memory) (a : Nat) (b : Byte) : Memory :=
  if b = Memory.unlisted font a then m.forget a else m.put a b

/-- The canonical form: addresses strictly rising and below 4096, and no entry equal to what its address reads as
unlisted. -/
abbrev Memory.wf (font : Config.Font) (m : Memory) : Prop :=
  m.Pairwise (fun p q => p.1 < q.1) ∧ ∀ p ∈ m, p.1 < Config.memSize ∧ p.2 ≠ Memory.unlisted font p.1

/-- `Ea(a) = a[11:0]`: the cell address of a 16-bit value (20_memory.md R35; log 4). -/
def ea (a : Word) : Addr := a.extractLsb' 0 12

/-- `MemRead(Ea(a), 1)` (R37). -/
def State.readByte (s : State) (a : Word) : Byte := Memory.read s.cfg.font s.mem (ea a).toNat

/-- `MemWrite(Ea(a), 1, b)` (R38). -/
def State.writeByte (s : State) (a : Word) (b : Byte) : State :=
  { s with mem := Memory.write s.cfg.font s.mem (ea a).toNat b }

/-- The opcode at PC: two bytes, the high one first (R36). -/
def State.fetchWord (s : State) : Word := composeWord (s.readByte s.pc) (s.readByte (s.pc + 1#16))

/-! ### Registers -/

/-- `V[x]` (00_scope.md R8). -/
def State.getV (s : State) (x : RegIx) : Byte := s.v[x.toNat]'x.isLt

/-- `V[x] <- b`; no register is hard-wired (10_state.md R12). -/
def State.setV (s : State) (x : RegIx) (b : Byte) : State := { s with v := s.v.set x.toNat b x.isLt }

/-- The index of VF. -/
abbrev vf : RegIx := 0xF#4

/-- `V[F] <- b`: the one home of the flag (10_state.md R13). -/
def State.setVF (s : State) (b : Byte) : State := s.setV vf b

/-- `PC <- w`. -/
def State.setPc (s : State) (w : Word) : State := { s with pc := w }

/-- `I <- w`; 16 bits, not masked (10_state.md R15, decision D6). -/
def State.setI (s : State) (w : Word) : State := { s with i := w }

/-- `DT <- b`. -/
def State.setDt (s : State) (b : Byte) : State := { s with dt := b }

/-- `ST <- b`. -/
def State.setSt (s : State) (b : Byte) : State := { s with st := b }

/-- A skip: PC moves 2 further, modulo 2^16, when the condition holds (42_skip.md R84). -/
def State.skipIf (s : State) (c : Bool) : State := if c then s.setPc (s.pc + 2#16) else s

/-- The fetch's effect: PC ← PC + 2 before dispatch (40_cycle.md R65), and the load window closes with the first cycle
(20_memory.md R40). -/
def State.advance (s : State) : State := { s with pc := s.pc + 2#16, loadWindow := false }

/-- `a`, the address of the executing instruction: PC holds `a + 2` while it executes (10_state.md R14). -/
def State.instrAddr (s : State) : Word := s.pc - 2#16

/-! ### The stack -/

/-- Push; none is overflow, with STACK and SP unchanged (41_display_control.md R73). -/
def State.push (s : State) (w : Word) : Option State :=
  if h : s.sp.val < Config.stackDepth then
    some { s with stack := s.stack.set s.sp.val w h, sp := ⟨s.sp.val + 1, Nat.succ_lt_succ h⟩ }
  else none

/-- Pop; none is underflow, with STACK and SP unchanged. The popped entry keeps its content (R74). -/
def State.pop (s : State) : Option (Word × State) :=
  if h : s.sp.val = 0 then none
  else some (s.stack[s.sp.val - 1]'(by omega), { s with sp := ⟨s.sp.val - 1, by omega⟩ })

/-! ### Diagnostics -/

/-- `report`: one event is appended and nothing else changes; no control is transferred (60_exceptions.md R122,
00_scope.md R8). -/
def State.report (s : State) (code : DiagCode) (a op : Word) : State :=
  { s with diag := s.diag ++ [{ code := code, pc := a, opcode := op }] }

/-! ### Display -/

/-- `DISP[y][x]` (10_state.md R21). -/
def Display.cell (d : Display) (x y : Nat) : Bool := d.getLsbD (y * Config.dispW + x)

/-- `DISP[y][x] <- DISP[y][x] ^ 1`. -/
def Display.toggle (d : Display) (x y : Nat) : Display := d ^^^ BitVec.twoPow 2048 (y * Config.dispW + x)

/-- `DISP <- d`. -/
def State.setDisp (s : State) (d : Display) : State := { s with disp := d }

/-- `REDRAW <- b` (10_state.md R22). -/
def State.setRedraw (s : State) (b : Bool) : State := { s with redraw := b }

/-! ### Key lines and key-wait -/

/-- `KEYS[k]` (10_state.md R25). -/
def State.key (s : State) (k : Nibble) : Bool := s.keys.getLsbD k.toNat

/-- The least k with `KEYS[k]` = 1, scanned "in ascending index order" (40_cycle.md R64). -/
def leastPressed (keys : Word) : Option Nat := (List.range Config.nKeys).find? fun k => keys.getLsbD k

/-- Enter key-wait: `WAIT <- 1`, `WAITREG <- x` (44_rand_keys_timers.md R102). -/
def State.enterWait (s : State) (x : RegIx) : State := { s with wait := true, waitReg := x }

/-- Leave key-wait with the line `k`: `V[WAITREG] <- zext_8(k)`, `WAIT <- 0` (40_cycle.md R64). -/
def State.leaveWait (s : State) (k : Nat) : State :=
  { s.setV s.waitReg (BitVec.ofNat 8 k) with wait := false }

/-- The key-wait gate (R64); none is a suspended cycle. -/
def State.gate (s : State) : Option State :=
  if s.wait then
    match leastPressed s.keys with
    | some k => some (s.leaveWait k)
    | none => none
  else some s

/-! ### The random input -/

/-- The byte this cycle's CXNN reads: the caller's, or a free value where the caller's is left open (40_cycle.md R69;
log 13). -/
def State.randByte (s : State) : Byte := s.rand.getD (Config.randByte s.randCount)

/-- The next free byte is a fresh one: "Each execution reads a fresh `rand`" (44_rand_keys_timers.md R98). -/
def State.takeRand (s : State) : State := { s with randCount := s.randCount + 1 }

/-- The `rand` input of a `step` transaction (10_state.md R31). -/
def State.presentRand (s : State) (r : Option Byte) : State := { s with rand := r }

end Machine
end Sys2Proof
end

