-- ==== Sys2Proof/Machine/Operands.lean ====
section
/-! DEFINITION. The operand forms (30_encoding.md R53). X and Y select `V[X]` and `V[Y]` (`State.getV`); NN and N are
used as they are; NNN is zero-extended; I is the only memory base, and BNNN the only sum of a register and a literal. -/

namespace Sys2Proof
namespace Machine

/-- `zext_16(NNN)`. -/
def addrOperand (nnn : Addr) : Word := nnn.zeroExtend 16

/-- `zext_16(v)` of a register value. -/
def wideOperand (b : Byte) : Word := b.zeroExtend 16

/-- `NNN + V[0]` modulo 2^16, the target of BNNN (41_display_control.md R79). -/
def State.v0Target (s : State) (nnn : Addr) : Word := addrOperand nnn + wideOperand (s.getV 0x0#4)

/-- `I + k` modulo 2^16: the k-th byte a memory transfer or a draw reaches, before `Ea` (20_memory.md R35). -/
def State.indexed (s : State) (k : Nat) : Word := s.i + BitVec.ofNat 16 k

/-- `V[X] & 0xF`: the key line EX9E and EXA1 test (44_rand_keys_timers.md R99). -/
def State.keyOperand (s : State) (x : RegIx) : Nibble := (s.getV x).extractLsb' 0 4

/-- The source of 8XY6 and 8XYE: Vy under `Q_SHIFT_COPY`, else Vx (43_alu.md R94, R96). -/
def State.shiftSource (s : State) (x y : RegIx) : Byte := if s.cfg.shiftCopy then s.getV y else s.getV x

/-- `0x0050 + V[X] × 5` modulo 2^16, without a mask (45_index_memory.md R107, decision D30; log 21). -/
def glyphAddr (b : Byte) : Word := 0x0050#16 + wideOperand b * 5#16

end Machine
end Sys2Proof
end

