-- ==== Sys2Proof/Machine/Flags.lean ====
section
/-! DEFINITION. The flag computations. VF is the only flag (10_state.md R13); each flag is computed from the operands read at
the start (43_alu.md R87) and written last, so it wins where VF is the destination (decision D12; log 10). -/

namespace Sys2Proof
namespace Machine

/-- A flag as VF holds it: 1 or 0. -/
def flagByte (b : Bool) : Byte := if b then 0x01#8 else 0x00#8

/-- Carry out of bit 7: the unclamped sum exceeds 255 (43_alu.md R92). -/
def carryFlag (a b : Byte) : Bool := decide (255 < a.toNat + b.toNat)

/-- No borrow: the minuend is strictly greater than the subtrahend (R93, R95). -/
def noBorrowFlag (minuend subtrahend : Byte) : Bool := decide (subtrahend.toNat < minuend.toNat)

/-- The bit a right shift moves out (R94). -/
def lowBit (b : Byte) : Bool := b.getLsbD 0

/-- The bit a left shift moves out (R96). -/
def highBit (b : Byte) : Bool := b.getLsbD 7

/-- FX1E's flag: the sum passes the 12-bit space (45_index_memory.md R106, decision D10; log 8). -/
def indexOverflowFlag (i : Word) (b : Byte) : Bool := decide (0x0FFF < i.toNat + b.toNat)

/-- Write the destination, then the flag: the last write wins (10_state.md R13). -/
def State.setVThenFlag (s : State) (x : RegIx) (b : Byte) (flag : Bool) : State :=
  (s.setV x b).setVF (flagByte flag)

/-- Write the destination of 8XY1, 8XY2 or 8XY3, then reset VF under `Q_VF_RESET` (43_alu.md R89). -/
def State.setVThenReset (s : State) (x : RegIx) (b : Byte) : State :=
  if s.cfg.vfReset then (s.setV x b).setVF 0x00#8 else s.setV x b

end Machine
end Sys2Proof
end

