-- ==== Sys2Proof/Machine/Alu.lean ====
section
/-! DEFINITION. Immediate loads and the ALU (43_alu.md R85-R97): unsigned 8-bit arithmetic that wraps. Both operands are read
from the state before any write (R87). -/

namespace Sys2Proof
namespace Machine

/-- `LD Vx, byte` (R85). -/
def execLdImm (x : RegIx) (nn : Byte) (s : State) : Host.Outcome State Fault Refusal :=
  .next (s.setV x nn)

/-- `ADD Vx, byte` (R86): no flag. -/
def execAddImm (x : RegIx) (nn : Byte) (s : State) : Host.Outcome State Fault Refusal :=
  .next (s.setV x (s.getV x + nn))

/-- `LD Vx, Vy` (R88). -/
def execLdReg (x y : RegIx) (s : State) : Host.Outcome State Fault Refusal :=
  .next (s.setV x (s.getV y))

/-- `OR Vx, Vy` (R89). -/
def execOr (x y : RegIx) (s : State) : Host.Outcome State Fault Refusal :=
  .next (s.setVThenReset x (s.getV x ||| s.getV y))

/-- `AND Vx, Vy` (R90). -/
def execAnd (x y : RegIx) (s : State) : Host.Outcome State Fault Refusal :=
  .next (s.setVThenReset x (s.getV x &&& s.getV y))

/-- `XOR Vx, Vy` (R91). -/
def execXor (x y : RegIx) (s : State) : Host.Outcome State Fault Refusal :=
  .next (s.setVThenReset x (s.getV x ^^^ s.getV y))

/-- `ADD Vx, Vy` (R92): VF is the carry. -/
def execAdd (x y : RegIx) (s : State) : Host.Outcome State Fault Refusal :=
  .next (s.setVThenFlag x (s.getV x + s.getV y) (carryFlag (s.getV x) (s.getV y)))

/-- `SUB Vx, Vy` (R93): VF = 1 iff vx > vy. -/
def execSub (x y : RegIx) (s : State) : Host.Outcome State Fault Refusal :=
  .next (s.setVThenFlag x (s.getV x - s.getV y) (noBorrowFlag (s.getV x) (s.getV y)))

/-- `SHR Vx, Vy` (R94): VF is bit 0 of the source. -/
def execShr (x y : RegIx) (s : State) : Host.Outcome State Fault Refusal :=
  .next (s.setVThenFlag x (s.shiftSource x y >>> 1) (lowBit (s.shiftSource x y)))

/-- `SUBN Vx, Vy` (R95): VF = 1 iff vy > vx. -/
def execSubn (x y : RegIx) (s : State) : Host.Outcome State Fault Refusal :=
  .next (s.setVThenFlag x (s.getV y - s.getV x) (noBorrowFlag (s.getV y) (s.getV x)))

/-- `SHL Vx, Vy` (R96): VF is bit 7 of the source. -/
def execShl (x y : RegIx) (s : State) : Host.Outcome State Fault Refusal :=
  .next (s.setVThenFlag x (s.shiftSource x y <<< 1) (highBit (s.shiftSource x y)))

end Machine
end Sys2Proof
end

