-- ==== Sys2Proof/Machine/DisplayControl.lean ====
section
/-! DEFINITION. Display clear and control transfer (41_display_control.md R75-R79). Every meaning starts after the fetch:
PC is the instruction's address + 2 (40_cycle.md R65). -/

namespace Sys2Proof
namespace Machine

/-- `CLS` (R75): every cell off, REDRAW raised. The ignored nibble changes nothing. -/
def execCls (_ign : Nibble) (s : State) : Host.Outcome State Fault Refusal :=
  .next ((s.setDisp 0#2048).setRedraw true)

/-- `RET` (R76): PC ← the popped address, or the sentinel with a StackUnderflow report when the stack is empty. -/
def execRet (ign : Nibble) (s : State) : Host.Outcome State Fault Refusal :=
  match s.pop with
  | some (w, t) => .next (t.setPc w)
  | none =>
    .next ((s.setPc Config.underflowSentinel).report .stackUnderflow s.instrAddr (encode (.ret ign)))

/-- `JP addr` (R77). -/
def execJp (nnn : Addr) (s : State) : Host.Outcome State Fault Refusal :=
  .next (s.setPc (addrOperand nnn))

/-- `CALL addr` (R78): push the post-fetch PC and jump; on a full stack report StackOverflow and fall through. -/
def execCall (nnn : Addr) (s : State) : Host.Outcome State Fault Refusal :=
  match s.push s.pc with
  | some t => .next (t.setPc (addrOperand nnn))
  | none => .next (s.report .stackOverflow s.instrAddr (encode (.call nnn)))

/-- `JP V0, addr` (R79). -/
def execJpV0 (nnn : Addr) (s : State) : Host.Outcome State Fault Refusal :=
  .next (s.setPc (s.v0Target nnn))

end Machine
end Sys2Proof
end

