-- ==== Sys2Proof/Machine/Draw.lean ====
section
/-! DEFINITION. The sprite draw (46_draw.md R111-R119): the XOR rasterizer and DXYN. -/

namespace Sys2Proof
namespace Machine

/-- What the rasterizer carries from cell to cell: the display and whether a cell went from on to off (R113). -/
structure Raster where
  disp : Display
  hit : Bool
  deriving DecidableEq, Repr

/-- Step 5 of R111: a sprite bit of 1 toggles the cell, and collides if the cell was on; a bit of 0 leaves it (R119). -/
def Raster.plot (r : Raster) (x y : Nat) (bit : Bool) : Raster :=
  if bit then { disp := r.disp.toggle x y, hit := r.hit || r.disp.cell x y } else r

/-- Step 4: `n` columns from column `c`, the most significant bit first; without wrap the row ends at the right edge
(R114, R115). -/
def Raster.drawCols (wrap : Bool) (row : Byte) (x0 y : Nat) (n c : Nat) (r : Raster) : Raster :=
  match n with
  | 0 => r
  | n + 1 =>
    if Config.dispW ≤ x0 + c ∧ wrap = false then r
    else Raster.drawCols wrap row x0 y n (c + 1) (r.plot ((x0 + c) % Config.dispW) y (row.getLsbD (7 - c)))

/-- Step 3: `n` rows from row `k`, one sprite byte per row at `Ea(I + k)` (R118); without wrap the draw ends at the
bottom edge (R114, R115). -/
def State.drawRows (s : State) (x0 y0 : Nat) (n k : Nat) (r : Raster) : Raster :=
  match n with
  | 0 => r
  | n + 1 =>
    if Config.dispH ≤ y0 + k ∧ s.cfg.displayWrap = false then r
    else State.drawRows s x0 y0 n (k + 1)
      (Raster.drawCols s.cfg.displayWrap (s.readByte (s.indexed k)) x0 ((y0 + k) % Config.dispH) 8 0 r)

/-- The start column, `V[X] mod 64` (R112). -/
def State.startCol (s : State) (x : RegIx) : Nat := (s.getV x).toNat % Config.dispW

/-- The start row, `V[Y] mod 32` (R112). -/
def State.startRow (s : State) (y : RegIx) : Nat := (s.getV y).toNat % Config.dispH

/-- `DRW Vx, Vy, nibble` (R111): VF is the collision flag, REDRAW is raised unconditionally (R116), N = 0 draws no
row (R117). The coordinates are read before VF is written. -/
def execDrw (x y : RegIx) (n : Nibble) (s : State) : Host.Outcome State Fault Refusal :=
  let out := s.drawRows (s.startCol x) (s.startRow y) n.toNat 0 { disp := s.disp, hit := false }
  .next (((s.setDisp out.disp).setVF (flagByte out.hit)).setRedraw true)

end Machine
end Sys2Proof
end

