-- ==== Sys2Proof/Machine/IndexMemory.lean ====
section
/-! DEFINITION. The index register and the memory transfers (45_index_memory.md R105-R110). -/

namespace Sys2Proof
namespace Machine

/-- The hundreds digit, `vx div 100` (R108). -/
def hundreds (b : Byte) : Byte := BitVec.ofNat 8 (b.toNat / 100)

/-- The tens digit, `(vx div 10) mod 10` (R108). -/
def tens (b : Byte) : Byte := BitVec.ofNat 8 (b.toNat / 10 % 10)

/-- The ones digit, `vx mod 10` (R108). -/
def ones (b : Byte) : Byte := BitVec.ofNat 8 (b.toNat % 10)

/-- `MemWrite(Ea(I + k), 1, V[k])` for `n` values of k, ascending from `k` (R109). -/
def State.storeRegsFrom (k n : Nat) (s : State) : State :=
  match n with
  | 0 => s
  | n + 1 => State.storeRegsFrom (k + 1) n (s.writeByte (s.indexed k) (s.getV (BitVec.ofNat 4 k)))

/-- `V[k] <- MemRead(Ea(I + k), 1)` for `n` values of k, ascending from `k` (R110). -/
def State.loadRegsFrom (k n : Nat) (s : State) : State :=
  match n with
  | 0 => s
  | n + 1 => State.loadRegsFrom (k + 1) n (s.setV (BitVec.ofNat 4 k) (s.readByte (s.indexed k)))

/-- After a block transfer: I ← I + (X + 1) under `Q_MEM_INC_I` (R109, R110). -/
def State.bumpI (s : State) (x : RegIx) : State :=
  if s.cfg.memIncI then s.setI (s.indexed (x.toNat + 1)) else s

/-- `LD I, addr` (R105). -/
def execLdI (nnn : Addr) (s : State) : Host.Outcome State Fault Refusal :=
  .next (s.setI (addrOperand nnn))

/-- `ADD I, Vx` (R106): the flag, where the option asks for it, is written last. -/
def execAddI (x : RegIx) (s : State) : Host.Outcome State Fault Refusal :=
  let t := s.setI (s.i + wideOperand (s.getV x))
  .next (if s.cfg.iOverflow then t.setVF (flagByte (indexOverflowFlag s.i (s.getV x))) else t)

/-- `LD F, Vx` (R107). -/
def execLdF (x : RegIx) (s : State) : Host.Outcome State Fault Refusal :=
  .next (s.setI (glyphAddr (s.getV x)))

/-- `LD B, Vx` (R108). -/
def execLdB (x : RegIx) (s : State) : Host.Outcome State Fault Refusal :=
  .next (((s.writeByte (s.indexed 0) (hundreds (s.getV x))).writeByte (s.indexed 1) (tens (s.getV x))).writeByte
    (s.indexed 2) (ones (s.getV x)))

/-- `LD [I], Vx` (R109). -/
def execStRegs (x : RegIx) (s : State) : Host.Outcome State Fault Refusal :=
  .next ((s.storeRegsFrom 0 (x.toNat + 1)).bumpI x)

/-- `LD Vx, [I]` (R110). -/
def execLdRegs (x : RegIx) (s : State) : Host.Outcome State Fault Refusal :=
  .next ((s.loadRegsFrom 0 (x.toNat + 1)).bumpI x)

end Machine
end Sys2Proof
end

