-- ==== Sys2Proof/Machine/RandKeysTimers.lean ====
section
/-! DEFINITION. Random, key lines, key-wait and timer access (44_rand_keys_timers.md R98-R104). -/

namespace Sys2Proof
namespace Machine

/-- `RND Vx, byte` (R98). -/
def execRnd (x : RegIx) (nn : Byte) (s : State) : Host.Outcome State Fault Refusal :=
  .next ((s.setV x (s.randByte &&& nn)).takeRand)

/-- `SKP Vx` (R99). -/
def execSkp (x : RegIx) (s : State) : Host.Outcome State Fault Refusal :=
  .next (s.skipIf (s.key (s.keyOperand x)))

/-- `SKNP Vx` (R100). -/
def execSknp (x : RegIx) (s : State) : Host.Outcome State Fault Refusal :=
  .next (s.skipIf (!s.key (s.keyOperand x)))

/-- `LD Vx, DT` (R101). -/
def execLdVxDt (x : RegIx) (s : State) : Host.Outcome State Fault Refusal :=
  .next (s.setV x s.dt)

/-- `LD Vx, K` (R102): `V[X]` is written by the gate of a later cycle. -/
def execLdVxK (x : RegIx) (s : State) : Host.Outcome State Fault Refusal :=
  .next (s.enterWait x)

/-- `LD DT, Vx` (R103). -/
def execLdDtVx (x : RegIx) (s : State) : Host.Outcome State Fault Refusal :=
  .next (s.setDt (s.getV x))

/-- `LD ST, Vx` (R104). -/
def execLdStVx (x : RegIx) (s : State) : Host.Outcome State Fault Refusal :=
  .next (s.setSt (s.getV x))

end Machine
end Sys2Proof
end

