-- ==== Sys2Proof/Machine/Skip.lean ====
section
/-! DEFINITION. The conditional skips on register values (42_skip.md R80-R84). -/

namespace Sys2Proof
namespace Machine

/-- `SE Vx, byte` (R80). -/
def execSeImm (x : RegIx) (nn : Byte) (s : State) : Host.Outcome State Fault Refusal :=
  .next (s.skipIf (s.getV x == nn))

/-- `SNE Vx, byte` (R81). -/
def execSneImm (x : RegIx) (nn : Byte) (s : State) : Host.Outcome State Fault Refusal :=
  .next (s.skipIf (s.getV x != nn))

/-- `SE Vx, Vy` (R82); op[3:0] is ignored (30_encoding.md R56). -/
def execSeReg (x y : RegIx) (_ign : Nibble) (s : State) : Host.Outcome State Fault Refusal :=
  .next (s.skipIf (s.getV x == s.getV y))

/-- `SNE Vx, Vy` (R83); op[3:0] is ignored (30_encoding.md R56). -/
def execSneReg (x y : RegIx) (_ign : Nibble) (s : State) : Host.Outcome State Fault Refusal :=
  .next (s.skipIf (s.getV x != s.getV y))

end Machine
end Sys2Proof
end

