-- ==== Sys2Proof/Machine/HostPort.lean ====
section
/-! DEFINITION. The host's transactions other than `step`, and the block's derived outputs (10_state.md R31). -/

namespace Sys2Proof
namespace Machine

/-- `reset` (70_reset_and_hazards.md R139): every element of R29 at its reset value; the options and the font stay
(10_state.md R28). The model's own fields stay too (log 23). -/
def State.applyReset (s : State) : State :=
  { State.resetWith s.cfg with schedule := s.schedule, randCount := s.randCount }

/-- `load(addr, byte)` (20_memory.md R40): accepted only in the window and where there is a cell; refused, it changes no
state (93_implementation_defined.md U18; log 17). -/
def State.applyLoad (s : State) (addr : Word) (b : Byte) : State :=
  if s.loadWindow && loadable addr then s.writeByte addr b else s

/-- `keys_in` (10_state.md R25). -/
def State.applyKeys (s : State) (lines : Word) : State := { s with keys := lines }

/-- One timer under a tick: a zero timer stays 0 (60_exceptions.md R132, decision D15; log 11). -/
def ticked (b : Byte) : Byte := if b = 0x00#8 then b else b - 0x01#8

/-- `tick` (R132). -/
def State.applyTick (s : State) : State := { s with dt := ticked s.dt, st := ticked s.st }

/-- `redraw_ack` (10_state.md R22). -/
def State.applyAck (s : State) : State := s.setRedraw false

/-- The output `sound_on = (ST ≠ 0)` (10_state.md R33). -/
def State.soundOn (s : State) : Bool := s.st != 0x00#8

/-- The output `waiting` = `WAIT` (R31). -/
def State.waiting (s : State) : Bool := s.wait

end Machine
end Sys2Proof
end

