-- ==== Sys2Proof/Machine/Cycle.lean ====
section
/-! DEFINITION. The fetch-decode-execute cycle (40_cycle.md R63-R68) and the transaction the host issues (10_state.md R31). -/

namespace Sys2Proof
namespace Machine

/-- Stages 2 to 4 of R68: fetch, decode, and execute, or report an unknown opcode and go on (R67). -/
def State.fetchAndRun (s : State) : Host.Outcome State Fault Refusal :=
  match decodeWord s.fetchWord with
  | .ok i => exec i s.advance
  | .error _ => .next (s.advance.report .unknownOpcode s.pc s.fetchWord)

/-- One cycle (R68): the key-wait gate, then the rest in the same call. A suspended cycle changes nothing (R64). -/
def State.cycle (s : State) : Host.Outcome State Fault Refusal :=
  match s.gate with
  | none => .next s
  | some t => t.fetchAndRun

/-- One transaction (10_state.md R31). -/
def State.transact (s : State) : Transaction → Host.Outcome State Fault Refusal
  | .reset => .next s.applyReset
  | .load addr b => .next (s.applyLoad addr b)
  | .keysIn lines => .next (s.applyKeys lines)
  | .step rand => (s.presentRand rand).cycle
  | .tick => .next s.applyTick
  | .redrawAck => .next s.applyAck

/-- The next transaction of the schedule and the state without it; a bare `step` when the schedule has run out
(40_cycle.md R71; log 18). -/
def State.nextTransaction (s : State) : Transaction × State :=
  match s.schedule with
  | [] => (.step none, s)
  | t :: rest => (t, { s with schedule := rest })

/-- Place the word `w` where the next fetch reads it (20_memory.md R36) and make the next step fetch: no transaction
stands before it and no key-wait is pending (log 19). -/
def State.placeFetchWord (s : State) (w : Word) : State :=
  { (s.writeByte s.pc (highByte w)).writeByte (s.pc + 1#16) (lowByte w) with schedule := [], wait := false }

end Machine
end Sys2Proof
end

