-- ==== Sys2Proof/Machine/Step.lean ====
section
/-! DEFINITION. One step of the machine: the next atomic transaction (10_state.md R31; 40_cycle.md R71). -/

namespace Sys2Proof
namespace Machine

/-- One step: the next transaction of the schedule, a cycle when none is scheduled. -/
def step (s : State) : Host.Outcome State Fault Refusal :=
  s.nextTransaction.2.transact s.nextTransaction.1

/-- `s` with the opcode-table word `w` stored where `step` fetches its next instruction. -/
def State.withFetchWord (s : State) (nbits w : Nat) : State := s.placeFetchWord (tableWord nbits w)

end Machine
end Sys2Proof
end

