-- ==== Sys2Proof/Safety.lean ====
section
/-! DEFINITION. The terms claims are stated in: a run that does not stop, the elements of the state with what it means that an
element is unchanged, what each instruction may write (10_state.md R32, R13), the cells a draw covers (46_draw.md R111-R115),
and the invariant of every step. -/

namespace Sys2Proof
namespace Machine

/-- A safe run of `k` steps: no step of it faults or is refused (60_exceptions.md R121). -/
def SafeRun (k : Nat) (s : State) : Prop := ∃ t, Sys2Proof.core.run k s = .next t

/-- The next transaction is a cycle that presents `r` and leaves `rest`: a scheduled `step`, or the bare one of an
empty schedule (log 18). -/
abbrev State.NextIsCycle (s : State) (r : Option Byte) (rest : List Transaction) : Prop :=
  s.schedule = .step r :: rest ∨ s.schedule = [] ∧ r = none ∧ rest = []

/-- The elements of the state (10_state.md R29, R32). -/
inductive Element where
  | v | pc | i | stack | sp | dt | st | mem | disp | redraw | wait | waitReg | keys | diag | rand | cfg | loadWindow
  | schedule | randCount
  deriving DecidableEq, Repr

/-- The element reads in `t` as in `s`; memory is compared byte by byte, as the machine reads it. -/
def Element.same (s t : State) : Element → Prop
  | .v => ∀ r, t.getV r = s.getV r
  | .pc => t.pc = s.pc
  | .i => t.i = s.i
  | .stack => t.stack = s.stack
  | .sp => t.sp = s.sp
  | .dt => t.dt = s.dt
  | .st => t.st = s.st
  | .mem => ∀ a, t.readByte a = s.readByte a
  | .disp => t.disp = s.disp
  | .redraw => t.redraw = s.redraw
  | .wait => t.wait = s.wait
  | .waitReg => t.waitReg = s.waitReg
  | .keys => t.keys = s.keys
  | .diag => t.diag = s.diag
  | .rand => t.rand = s.rand
  | .cfg => t.cfg = s.cfg
  | .loadWindow => t.loadWindow = s.loadWindow
  | .schedule => t.schedule = s.schedule
  | .randCount => t.randCount = s.randCount

/-- Every element outside `ws` is unchanged. -/
def Unchanged (ws : List Element) (s t : State) : Prop := ∀ e, e ∉ ws → e.same s t

/-- Every register outside `rs` is unchanged. -/
def RegsUnchanged (rs : List RegIx) (s t : State) : Prop := ∀ r, r ∉ rs → t.getV r = s.getV r

/-- Every byte of memory outside the cells `as` is unchanged. -/
def BytesUnchanged (as : List Addr) (s t : State) : Prop := ∀ a, ea a ∉ as → t.readByte a = s.readByte a

/-- Every word of a row of R55 decodes to the instruction `f` reads from its fields. -/
def Encodes (mask value : Word) (f : Word → Instr) : Prop := ∀ op, op &&& mask = value → decodeWord op = .ok (f op)

/-- The cells of the first `n` bytes from I, as the meanings form them. -/
def State.cellsFromI (s : State) (n : Nat) : List Addr := (List.range n).map fun k => ea (s.indexed k)

/-- The sprite bit that falls on the cell (x, y) of a draw of `n` rows from (x0, y0), false where none does: bit
`7 - (x - x0)` of row `y - y0`'s byte (R118, R119), the differences taken around the edges, and only without crossing
an edge unless `Q_DISPLAY_WRAP` is set (R114, R115). Stated cell by cell, without the rasterizer's loops. -/
def State.spriteBit (s : State) (x0 y0 n x y : Nat) : Bool :=
  let dx := (x + Config.dispW - x0) % Config.dispW
  let dy := (y + Config.dispH - y0) % Config.dispH
  decide (dx < 8) && decide (dy < n) && (s.cfg.displayWrap || (decide (x0 ≤ x) && decide (y0 ≤ y))) &&
    (s.readByte (s.indexed dy)).getLsbD (7 - dx)

/-- A diagnostic event names a word that can raise it (60_exceptions.md R122). -/
abbrev DiagEvent.legit (e : DiagEvent) : Prop :=
  (e.code = .stackOverflow → e.opcode &&& 0xF000#16 = 0x2000#16) ∧
  (e.code = .stackUnderflow → e.opcode &&& 0xF0FF#16 = 0x00EE#16) ∧
  (e.code = .unknownOpcode → knownWord e.opcode = false)

/-- While the load window is open nothing has run: only the Loader's bytes and the key lines differ from reset
(20_memory.md R40; 10_state.md R11). -/
abbrev State.freshWhileLoading (s : State) : Prop :=
  s.loadWindow = true →
    s = { State.resetWith s.cfg with mem := s.mem, keys := s.keys, schedule := s.schedule, randCount := s.randCount }

/-- The invariant of every step: memory in canonical form with every cell below 4096, a diagnostic channel of legal
events, and a machine fresh from reset while the load window is open. -/
abbrev State.Inv (s : State) : Prop :=
  Memory.wf s.cfg.font s.mem ∧ (∀ e ∈ s.diag, e.legit) ∧ s.freshWhileLoading

/-- The state without what the spec calls output only: ST, REDRAW and DIAG (10_state.md R19, R22, R26, R30). -/
def State.blind (s : State) : State := { s with st := 0x00#8, redraw := false, diag := [] }

end Machine

open Machine

/-- The access matrix of R32: what an instruction may write beyond the fetch's PC. A jump or skip writes PC once more
(40_cycle.md R65). RET writes SP and leaves STACK (R16); RND takes a free random byte (log 13). -/
def Instr.writes (c : Config.Options) : Instr → List Element
  | .cls _ => [.disp, .redraw]
  | .ret _ => [.pc, .sp, .diag]
  | .jp _ | .jpV0 _ => [.pc]
  | .call _ => [.pc, .stack, .sp, .diag]
  | .seImm _ _ | .sneImm _ _ | .seReg _ _ _ | .sneReg _ _ _ | .skp _ | .sknp _ => [.pc]
  | .ldImm _ _ | .addImm _ _ | .ldReg _ _ | .orReg _ _ | .andReg _ _ | .xorReg _ _ | .addReg _ _ | .sub _ _
  | .shr _ _ | .subn _ _ | .shl _ _ | .ldVxDt _ => [.v]
  | .rnd _ _ => [.v, .randCount]
  | .ldI _ | .ldF _ => [.i]
  | .drw _ _ _ => [.v, .disp, .redraw]
  | .ldVxK _ => [.wait, .waitReg]
  | .ldDtVx _ => [.dt]
  | .ldStVx _ => [.st]
  | .addI _ => if c.iOverflow then [.i, .v] else [.i]
  | .ldB _ => [.mem]
  | .stRegs _ => if c.memIncI then [.mem, .i] else [.mem]
  | .ldRegs _ => if c.memIncI then [.v, .i] else [.v]

/-- The registers an instruction may write: its destination, and VF where R13 lists it. -/
def Instr.regWrites (c : Config.Options) : Instr → List RegIx
  | .ldImm x _ | .addImm x _ | .ldReg x _ | .rnd x _ | .ldVxDt x => [x]
  | .orReg x _ | .andReg x _ | .xorReg x _ => if c.vfReset then [x, vf] else [x]
  | .addReg x _ | .sub x _ | .shr x _ | .subn x _ | .shl x _ => [x, vf]
  | .addI _ => if c.iOverflow then [vf] else []
  | .drw _ _ _ => [vf]
  | .ldRegs x => (List.range (x.toNat + 1)).map (BitVec.ofNat 4)
  | .cls _ | .ret _ | .jp _ | .call _ | .seImm _ _ | .sneImm _ _ | .seReg _ _ _ | .sneReg _ _ _ | .ldI _ | .jpV0 _
  | .skp _ | .sknp _ | .ldVxK _ | .ldDtVx _ | .ldStVx _ | .ldF _ | .ldB _ | .stRegs _ => []

/-- The cells an instruction stores to in the state `s` (20_memory.md R43): three for FX33, X + 1 for FX55. -/
def Instr.stores (s : State) : Instr → List Addr
  | .ldB _ => s.cellsFromI 3
  | .stRegs x => s.cellsFromI (x.toNat + 1)
  | .cls _ | .ret _ | .jp _ | .call _ | .seImm _ _ | .sneImm _ _ | .seReg _ _ _ | .sneReg _ _ _ | .ldImm _ _
  | .addImm _ _ | .ldReg _ _ | .orReg _ _ | .andReg _ _ | .xorReg _ _ | .addReg _ _ | .sub _ _ | .shr _ _
  | .subn _ _ | .shl _ _ | .ldI _ | .jpV0 _ | .rnd _ _ | .drw _ _ _ | .skp _ | .sknp _ | .ldVxDt _ | .ldVxK _
  | .ldDtVx _ | .ldStVx _ | .addI _ | .ldF _ | .ldRegs _ => []

end Sys2Proof
end

