-- ==== Sys2Proof/Certificates/Slice0/Obligations.lean ====
section
/-! DEFINITION. The statements for the provers. Each docstring names the rules of spec/ the statement formalises; where a
clause rests on a decision of 92_eei_decisions.md it names the log entry. `Encodes` is the Encoding line of an
instruction's rule; the opcode values in it are the spec's decision D1 (log 1). -/

open Sys2Proof Sys2Proof.Machine

/-! ### Encoding -/

/-- Decoding an encoded instruction gives it back with every operand, as a word and as the first two bytes of any byte
sequence (30_encoding.md R51-R55; 20_memory.md R39). -/
def Obligations.EncodedInstructionDecodesBack : Prop :=
  ∀ (i : Instr) (rest : List Byte), i.wellFormed = true →
    decodeWord (encode i) = .ok i ∧ decodeBytes (encodeBytes i ++ rest) = .ok (i, rest)

/-- A word that decodes to an instruction is that instruction's encoding: no bit of the word is lost
(30_encoding.md R52, R55). -/
def Obligations.DecodedWordEncodesBack : Prop :=
  ∀ (op : Word) (i : Instr), decodeWord op = .ok i → encode i = op

/-- 30_encoding.md R62: a word matches exactly one row of the opcode map and decodes to an instruction of that row, or
matches none and is rejected. The rows are the spec's decision D1 (log 1). -/
def Obligations.EveryWordHasOneRowOrIsUnknown : Prop :=
  ∀ op : Word,
    match decodeWord op with
    | .ok i => opcodeTable.filter (rowMatches op) = [i.row]
    | .error _ => opcodeTable.filter (rowMatches op) = []

/-- The decoder rejects exactly the words of the table of unknown encodings (30_encoding.md R58). The table rests on the
spec's decisions D1 and D3 (log 1, log 3). -/
def Obligations.UnknownWordsAreTheTabulatedOnes : Prop :=
  ∀ op : Word, (∃ e, decodeWord op = .error e) ↔ knownWord op = false

/-- Words written out from the map of 30_encoding.md R55, one or more of each of the sixteen families (00_scope.md R10),
decode to what they stand for (log 1; the ignored nibbles: log 3). -/
def Obligations.WrittenOutWordsDecode : Prop :=
  decodeWord 0b0000010111100000#16 = .ok (.cls 0x5#4) ∧
  decodeWord 0b0000000011101110#16 = .ok (.ret 0x0#4) ∧
  decodeWord 0b0001001000110100#16 = .ok (.jp 0x234#12) ∧
  decodeWord 0b0010111111101101#16 = .ok (.call 0xFED#12) ∧
  decodeWord 0b0011101101111110#16 = .ok (.seImm 0xB#4 0x7E#8) ∧
  decodeWord 0b0100000110000001#16 = .ok (.sneImm 0x1#4 0x81#8) ∧
  decodeWord 0b0101000100100111#16 = .ok (.seReg 0x1#4 0x2#4 0x7#4) ∧
  decodeWord 0b0110101010011100#16 = .ok (.ldImm 0xA#4 0x9C#8) ∧
  decodeWord 0b0111000111111111#16 = .ok (.addImm 0x1#4 0xFF#8) ∧
  decodeWord 0b1000111100101110#16 = .ok (.shl 0xF#4 0x2#4) ∧
  decodeWord 0b1001001101001000#16 = .ok (.sneReg 0x3#4 0x4#4 0x8#4) ∧
  decodeWord 0b1010000100100011#16 = .ok (.ldI 0x123#12) ∧
  decodeWord 0b1011100000000001#16 = .ok (.jpV0 0x801#12) ∧
  decodeWord 0b1100000100001111#16 = .ok (.rnd 0x1#4 0x0F#8) ∧
  decodeWord 0b1101000100101111#16 = .ok (.drw 0x1#4 0x2#4 0xF#4) ∧
  decodeWord 0b1110010110011110#16 = .ok (.skp 0x5#4) ∧
  decodeWord 0b1111101000110011#16 = .ok (.ldB 0xA#4) ∧
  decodeWord 0b1000000100101000#16 = .error (.unknownFamily8 0x8128#16)

/-! ### The cycle -/

/-- A step whose transaction is a cycle, outside key-wait, runs the instruction at PC: `exec` on the state with PC moved
past the word, the load window closed and the caller's byte presented (40_cycle.md R65, R66, R68). A bare step leaves
that byte open (log 13, log 18). 16-bit PC: log 5; `Ea` in the fetch: log 4; the window: log 17. -/
def Obligations.StepRunsDecodedInstruction : Prop :=
  ∀ (s : State) (i : Instr), s.wait = false → decodeWord s.fetchWord = .ok i →
    (s.schedule = [] → step s = exec i { s with rand := none, pc := s.pc + 2#16, loadWindow := false }) ∧
    (∀ r rest, s.schedule = .step r :: rest →
      step s = exec i { s with schedule := rest, rand := r, pc := s.pc + 2#16, loadWindow := false })

/-- The key-wait gate (40_cycle.md R64), in a scheduled and in a bare cycle (log 13, log 18): with no line pressed a
waiting cycle changes nothing but the transaction it takes; with `k` the least pressed line it is the same step from the
state with `k` in the pending register and the latch clear, so the fetch follows in the same call; outside key-wait the
gate does nothing. Level-sensitive lines and the same call: log 12. -/
def Obligations.KeyWaitGateSuspendsOrResumes : Prop :=
  (∀ (s : State) r rest, s.NextIsCycle r rest → s.wait = true → s.keys = 0#16 →
    step s = .next { s with schedule := rest, rand := r }) ∧
  (∀ s : State, s.schedule = [] → s.rand = none → s.wait = true → s.keys = 0#16 → step s = .next s) ∧
  (∀ (s : State) (k : Nat) r rest, s.NextIsCycle r rest → s.wait = true → k < 16 →
    s.keys.getLsbD k = true → (∀ j < k, s.keys.getLsbD j = false) →
    step s = step { s.setV s.waitReg (BitVec.ofNat 8 k) with wait := false }) ∧
  (∀ s : State, s.wait = false → s.gate = some s)

/-- An unknown opcode is reported with its address and word, PC stays at a + 2, and nothing else changes (40_cycle.md
R67; 60_exceptions.md R125), in a scheduled and in a bare cycle. Which words are unknown: log 1, log 3; the event: log
14; 16-bit PC: log 5; `Ea` in the fetch: log 4. What the transaction itself changes, the schedule, the caller's byte and
the load window: log 18, log 13, log 17. -/
def Obligations.UnknownOpcodeIsReportedAndSkipped : Prop :=
  ∀ (s : State) r rest, s.NextIsCycle r rest → s.wait = false → knownWord s.fetchWord = false →
    ∃ t, step s = .next t ∧ t.pc = s.pc + 2#16 ∧
      t.diag = s.diag ++ [{ code := .unknownOpcode, pc := s.pc, opcode := s.fetchWord }] ∧
      t.schedule = rest ∧ t.rand = r ∧ t.loadWindow = false ∧
      Unchanged [.pc, .diag, .schedule, .rand, .loadWindow] s t

/-- No run stops, whatever the state and the schedule (60_exceptions.md R121; 40_cycle.md R72, "no cycle outcome stops
it"). -/
def Obligations.EveryRunContinues : Prop := ∀ (k : Nat) (s : State), SafeRun k s

/-- 40_cycle.md R70: a cycle, scheduled or bare (log 18), changes DT only by FX15 and ST only by FX18, and no transaction but the
tick decrements a timer (reset writes 0). -/
def Obligations.CycleChangesTimersOnlyByTheirWrites : Prop :=
  (∀ (s t : State) r rest, s.NextIsCycle r rest → step s = .next t →
    (t.dt ≠ s.dt → ∃ x, decodeWord s.fetchWord = .ok (.ldDtVx x)) ∧
    (t.st ≠ s.st → ∃ x, decodeWord s.fetchWord = .ok (.ldStVx x))) ∧
  (∀ (s t : State) tr rest, s.schedule = tr :: rest → (∀ r, tr ≠ .step r) → tr ≠ .tick → step s = .next t →
    if tr = .reset then t.dt = 0x00#8 ∧ t.st = 0x00#8 else t.dt = s.dt ∧ t.st = s.st)

/-- The idle state of 40_cycle.md R72 (decision D29, log 25), in a bare cycle (log 18): a 1NNN to its own address leaves
the whole state as it is, once the caller's byte (log 13) and the load window (log 17) are out of the way. -/
def Obligations.JumpToItselfIsIdle : Prop :=
  ∀ (s : State) (nnn : Addr), s.schedule = [] → s.wait = false → s.rand = none → s.loadWindow = false →
    s.pc = nnn.zeroExtend 16 → decodeWord s.fetchWord = .ok (.jp nnn) → step s = .next s

/-- A cycle, scheduled or bare, reports at most one event, appended to the channel (10_state.md R26; 60_exceptions.md
R126; the event: log 14; the bare cycle: log 18). -/
def Obligations.CycleAppendsAtMostOneEvent : Prop :=
  ∀ (s t : State) r rest, s.NextIsCycle r rest → step s = .next t →
    t.diag = s.diag ∨ ∃ e : DiagEvent, t.diag = s.diag ++ [e] ∧ e.pc = s.pc ∧ e.opcode = s.fetchWord

/-- No cycle, scheduled or bare, clears REDRAW, and a cycle that changes the display raises it (10_state.md R21, R22;
REDRAW is sticky by decision D21, log 16; the bare cycle: log 18). -/
def Obligations.RedrawIsStickyAndFollowsEveryDisplayChange : Prop :=
  ∀ (s t : State) r rest, s.NextIsCycle r rest → step s = .next t →
    (s.redraw = true → t.redraw = true) ∧ (t.disp ≠ s.disp → t.redraw = true)

/-- A step takes one transaction of the schedule and never changes the options or the font (10_state.md R28, R31;
log 7, log 18). -/
def Obligations.StepTakesOneTransactionAndKeepsOptions : Prop :=
  ∀ s t : State, step s = .next t → t.schedule = s.schedule.tail ∧ t.cfg = s.cfg

/-! ### Invariant -/

/-- Every step, whatever transaction it takes, keeps the invariant: memory in canonical form (log 20), a channel of
legal events (60_exceptions.md R122; log 1, log 3, log 14), and a machine fresh from reset while the load window is open
(20_memory.md R40; log 17). -/
def Obligations.EveryStepKeepsTheInvariant : Prop := ∀ s t : State, s.Inv → step s = .next t → t.Inv

/-- Reset meets the invariant, under every choice of options and font (log 17, log 20). -/
def Obligations.ResetMeetsTheInvariant : Prop :=
  State.reset.Inv ∧ ∀ c : Config.Options, (State.resetWith c).Inv

/-- Nothing the spec calls output only has an influence: two states that differ in ST, REDRAW and DIAG alone go to
states that differ in no more (10_state.md R19, R22, R26, R30). -/
def Obligations.OutputsInfluenceNothing : Prop :=
  ∀ s t : State, s.blind = t.blind →
    ∃ s' t', step s = .next s' ∧ step t = .next t' ∧ s'.blind = t'.blind

/-! ### The host's transactions -/

/-- What the reset transaction leaves (70_reset_and_hazards.md R139; 10_state.md R29). The values of WAITREG, REDRAW and
DIAG are the spec's decisions D25, D21 and D19 (log 16, log 14); that the load window is open is the model's (decision
D22, log 17), and so are the fields the transaction keeps (log 23). -/
def Obligations.ResetInitialisesEveryElement : Prop :=
  ∀ (s : State) rest, s.schedule = .reset :: rest →
    ∃ t, step s = .next t ∧ (∀ r, t.getV r = 0x00#8) ∧ t.pc = 0x0200#16 ∧ t.i = 0x0000#16 ∧
      (∀ k : Nat, k < 16 → t.stack[k]? = some 0x0000#16) ∧ t.sp.val = 0 ∧ t.dt = 0x00#8 ∧ t.st = 0x00#8 ∧
      (∀ j : Fin 80, t.readByte (0x0050#16 + BitVec.ofNat 16 j.val) = s.cfg.font[j.val]) ∧
      (∀ a : Word, a.toNat < 0x050 ∨ (0x0A0 ≤ a.toNat ∧ a.toNat < 4096) → t.readByte a = 0x00#8) ∧
      (∀ x y, x < 64 → y < 32 → t.disp.cell x y = false) ∧ t.redraw = false ∧ t.wait = false ∧
      t.waitReg = 0x0#4 ∧ t.keys = 0x0000#16 ∧ t.diag = [] ∧ t.loadWindow = true ∧ t.cfg = s.cfg

/-- Two consecutive resets leave the state of one (70_reset_and_hazards.md R140; reset during a run: decision D22, log
17; what it keeps: log 23). -/
def Obligations.ResetTwiceIsResetOnce : Prop :=
  ∀ (s : State) rest, s.schedule = .reset :: .reset :: rest →
    ∃ t, step s = .next t ∧ step t = .next { t with schedule := rest }

/-- A tick takes 1 from each timer that is not 0 and changes nothing else (60_exceptions.md R132; that a zero timer
stays 0 is the spec's decision D15, log 11). -/
def Obligations.TickDecrementsNonzeroTimers : Prop :=
  ∀ (s : State) rest, s.schedule = .tick :: rest →
    ∃ t, step s = .next t ∧ t.dt.toNat = s.dt.toNat - 1 ∧ t.st.toNat = s.st.toNat - 1 ∧
      Unchanged [.dt, .st, .schedule] s t

/-- A load in the window writes its one byte; a load outside it, or where there is no cell, changes nothing
(20_memory.md R40; 93_implementation_defined.md U18; log 17). -/
def Obligations.LoadWritesOnlyInTheWindow : Prop :=
  ∀ (s : State) (a : Word) (b : Byte) rest, s.schedule = .load a b :: rest →
    (s.loadWindow = true → a.toNat < 4096 →
      ∃ t, step s = .next t ∧ t.readByte a = b ∧ BytesUnchanged [ea a] s t ∧ Unchanged [.mem, .schedule] s t) ∧
    (s.loadWindow = false ∨ 4096 ≤ a.toNat → step s = .next { s with schedule := rest })

/-- A cycle outside key-wait, scheduled or bare, leaves the load window closed (20_memory.md R40; log 17; the bare
cycle: log 18). -/
def Obligations.FirstCycleClosesTheLoadWindow : Prop :=
  ∀ (s t : State) r rest, s.NextIsCycle r rest → s.wait = false → step s = .next t → t.loadWindow = false

/-- The key lines are the host's to write, and the acknowledgement clears REDRAW; neither changes anything else
(10_state.md R22, R25; decisions D21 and D16, log 16, log 12). -/
def Obligations.KeysInAndRedrawAckWriteTheirOwn : Prop :=
  (∀ (s : State) lines rest, s.schedule = .keysIn lines :: rest →
    ∃ t, step s = .next t ∧ t.keys = lines ∧ Unchanged [.keys, .schedule] s t) ∧
  (∀ (s : State) rest, s.schedule = .redrawAck :: rest →
    ∃ t, step s = .next t ∧ t.redraw = false ∧ Unchanged [.redraw, .schedule] s t)

/-! ### Frames -/

/-- The write columns of the access matrix, for all 34 instructions and under every option: an instruction runs and
changes no element outside its row (10_state.md R32; RET leaves STACK: R16, log 16; the counter of RND: log 13). -/
def Obligations.InstructionsWriteOnlyTheirElements : Prop :=
  ∀ (i : Instr) (s : State), ∃ t, exec i s = .next t ∧ Unchanged (i.writes s.cfg) s t

/-- For all 34 instructions: every register but the destination, and VF where R13 lists the instruction, is unchanged
(10_state.md R12, R13; 45_index_memory.md R110). -/
def Obligations.InstructionsWriteOnlyTheirRegisters : Prop :=
  ∀ (i : Instr) (s : State), ∃ t, exec i s = .next t ∧ RegsUnchanged (i.regWrites s.cfg) s t

/-- For all 34 instructions: every byte of memory is unchanged but the bytes stored, three from I by FX33 and X + 1 from
I by FX55 (20_memory.md R43; 45_index_memory.md R108, R109). -/
def Obligations.InstructionsStoreOnlyTheirBytes : Prop :=
  ∀ (i : Instr) (s : State), ∃ t, exec i s = .next t ∧ BytesUnchanged (i.stores s) s t

/-! ### Display clear, control transfer and the stack -/

/-- 41_display_control.md R75: every cell off, REDRAW raised, whatever the ignored nibble, and nothing else. Its
Encoding line is in `PlainRowsDecodeWithTheirFields`. -/
def Obligations.ClsClearsEveryCellAndRaisesRedraw : Prop :=
  ∀ (ign : Nibble) (s : State), ∃ t, exec (.cls ign) s = .next t ∧
    (∀ x y, x < 64 → y < 32 → t.disp.cell x y = false) ∧ t.redraw = true ∧ Unchanged [.disp, .redraw] s t

/-- RET pops into PC; on an empty stack PC becomes the sentinel, whatever it is, and the underflow is reported at the
instruction's address (41_display_control.md R76, R74; 60_exceptions.md R124). The sentinel: log 6; the event and its
address PC - 2: log 14; the kept entry: log 16. Opcode values: log 1; the ignored nibble: log 3. -/
def Obligations.RetPopsOrReportsUnderflow : Prop :=
  Encodes 0xF0FF#16 0x00EE#16 (fun op => .ret (fieldX op)) ∧
  ∀ (ign : Nibble) (s : State),
    (s.sp.val ≠ 0 → ∃ t, exec (.ret ign) s = .next t ∧ t.sp.val + 1 = s.sp.val ∧
      s.stack[t.sp.val]? = some t.pc ∧ Unchanged [.pc, .sp] s t) ∧
    (s.sp.val = 0 → ∃ t, exec (.ret ign) s = .next t ∧ t.pc = Config.underflowSentinel ∧
      t.diag = s.diag ++ [{ code := .stackUnderflow, pc := s.pc - 2#16, opcode := encode (.ret ign) }] ∧
      Unchanged [.pc, .diag] s t)

/-- 41_display_control.md R77: PC becomes NNN and nothing else changes. Its Encoding line is in
`PlainRowsDecodeWithTheirFields`. -/
def Obligations.JpSetsPc : Prop :=
  ∀ (nnn : Addr) (s : State), ∃ t, exec (.jp nnn) s = .next t ∧ t.pc.toNat = nnn.toNat ∧ Unchanged [.pc] s t

/-- CALL pushes the post-fetch PC and jumps; at SP = 16 nothing changes but the report (41_display_control.md R78, R73;
60_exceptions.md R123). The event and its address PC - 2: log 14. Opcode values: log 1. -/
def Obligations.CallPushesOrReportsOverflow : Prop :=
  Encodes 0xF000#16 0x2000#16 (fun op => .call (fieldNNN op)) ∧
  ∀ (nnn : Addr) (s : State),
    (s.sp.val < 16 → ∃ t, exec (.call nnn) s = .next t ∧ t.pc.toNat = nnn.toNat ∧ t.sp.val = s.sp.val + 1 ∧
      t.stack[s.sp.val]? = some s.pc ∧ (∀ k : Nat, k ≠ s.sp.val → t.stack[k]? = s.stack[k]?) ∧
      Unchanged [.pc, .stack, .sp] s t) ∧
    (s.sp.val = 16 → ∃ t, exec (.call nnn) s = .next t ∧
      t.diag = s.diag ++ [{ code := .stackOverflow, pc := s.pc - 2#16, opcode := encode (.call nnn) }] ∧
      Unchanged [.diag] s t)

/-- 41_display_control.md R79: the sum is taken in 16 bits and never wraps, since it is at most 0x10FE (16-bit PC:
decision D6, log 5). Opcode values: log 1. -/
def Obligations.JpV0AddsV0ToTheAddress : Prop :=
  Encodes 0xF000#16 0xB000#16 (fun op => .jpV0 (fieldNNN op)) ∧
  ∀ (nnn : Addr) (s : State), ∃ t, exec (.jpV0 nnn) s = .next t ∧
    t.pc.toNat = nnn.toNat + (s.getV 0x0#4).toNat ∧ Unchanged [.pc] s t

/-- A call and the return it meets: PC is the address after the call and SP what it was (95_test_vectors.md S2; SP's
representation: log 16). -/
def Obligations.CallThenRetComesBack : Prop :=
  ∀ (nnn : Addr) (ign : Nibble) (s : State), s.sp.val < 16 →
    ∃ t u, exec (.call nnn) s = .next t ∧ exec (.ret ign) t.advance = .next u ∧ u.pc = s.pc ∧ u.sp = s.sp

/-! ### Skips -/

/-- The immediate skips move PC by 2 more when the condition holds and change nothing else (42_skip.md R80, R81, R84).
Modulo 2^16: decision D6, log 5. Opcode values: log 1. -/
def Obligations.ImmediateSkipsCompareTheRegister : Prop :=
  Encodes 0xF000#16 0x3000#16 (fun op => .seImm (fieldX op) (fieldNN op)) ∧
  Encodes 0xF000#16 0x4000#16 (fun op => .sneImm (fieldX op) (fieldNN op)) ∧
  ∀ (x : RegIx) (nn : Byte) (s : State),
    (∃ t, exec (.seImm x nn) s = .next t ∧ t.pc = (if s.getV x = nn then s.pc + 2#16 else s.pc) ∧
      Unchanged [.pc] s t) ∧
    (∃ t, exec (.sneImm x nn) s = .next t ∧ t.pc = (if s.getV x = nn then s.pc else s.pc + 2#16) ∧
      Unchanged [.pc] s t)

/-- The register skips (42_skip.md R82, R83, R84), for every value of the ignored nibble (decision D4, log 3). Modulo
2^16: decision D6, log 5. Opcode values: log 1. -/
def Obligations.RegisterSkipsCompareTwoRegisters : Prop :=
  Encodes 0xF000#16 0x5000#16 (fun op => .seReg (fieldX op) (fieldY op) (fieldN op)) ∧
  Encodes 0xF000#16 0x9000#16 (fun op => .sneReg (fieldX op) (fieldY op) (fieldN op)) ∧
  ∀ (x y : RegIx) (ign : Nibble) (s : State),
    (∃ t, exec (.seReg x y ign) s = .next t ∧ t.pc = (if s.getV x = s.getV y then s.pc + 2#16 else s.pc) ∧
      Unchanged [.pc] s t) ∧
    (∃ t, exec (.sneReg x y ign) s = .next t ∧ t.pc = (if s.getV x = s.getV y then s.pc else s.pc + 2#16) ∧
      Unchanged [.pc] s t)

/-- The key skips test the line of the register's low nibble (44_rand_keys_timers.md R99, R100; 42_skip.md R84). The
level of the lines: decision D16, log 12. Modulo 2^16: decision D6, log 5. Opcode values: log 1. -/
def Obligations.KeySkipsTestTheLowNibblesLine : Prop :=
  Encodes 0xF0FF#16 0xE09E#16 (fun op => .skp (fieldX op)) ∧
  Encodes 0xF0FF#16 0xE0A1#16 (fun op => .sknp (fieldX op)) ∧
  ∀ (x : RegIx) (s : State),
    (∃ t, exec (.skp x) s = .next t ∧
      t.pc = (if s.keys.getLsbD ((s.getV x).toNat % 16) = true then s.pc + 2#16 else s.pc) ∧ Unchanged [.pc] s t) ∧
    (∃ t, exec (.sknp x) s = .next t ∧
      t.pc = (if s.keys.getLsbD ((s.getV x).toNat % 16) = true then s.pc else s.pc + 2#16) ∧ Unchanged [.pc] s t)

/-! ### Immediate loads and the ALU -/

/-- 43_alu.md R85, R86, R88: the forms that write one register and no flag, VF included as a destination like any other.
Their Encoding lines are in `PlainRowsDecodeWithTheirFields`. -/
def Obligations.LoadsAndAddImmediateWriteOneRegister : Prop :=
  ∀ (x y : RegIx) (nn : Byte) (s : State),
    (∃ t, exec (.ldImm x nn) s = .next t ∧ t.getV x = nn ∧ RegsUnchanged [x] s t ∧ Unchanged [.v] s t) ∧
    (∃ t, exec (.addImm x nn) s = .next t ∧ (t.getV x).toNat = ((s.getV x).toNat + nn.toNat) % 256 ∧
      RegsUnchanged [x] s t ∧ Unchanged [.v] s t) ∧
    (∃ t, exec (.ldReg x y) s = .next t ∧ t.getV x = s.getV y ∧ RegsUnchanged [x] s t ∧ Unchanged [.v] s t)

/-- OR, AND and XOR, with VF reset last where `Q_VF_RESET` is set (43_alu.md R89, R90, R91). Operands read first, VF
written last: decisions D13 and D12, log 10. Opcode values: log 1. -/
def Obligations.LogicWritesTheResultThenResetsVf : Prop :=
  Encodes 0xF00F#16 0x8001#16 (fun op => .orReg (fieldX op) (fieldY op)) ∧
  Encodes 0xF00F#16 0x8002#16 (fun op => .andReg (fieldX op) (fieldY op)) ∧
  Encodes 0xF00F#16 0x8003#16 (fun op => .xorReg (fieldX op) (fieldY op)) ∧
  ∀ (x y : RegIx) (s : State),
    (∃ t, exec (.orReg x y) s = .next t ∧ Unchanged [.v] s t ∧ ∀ r, t.getV r =
      if r = 0xF#4 ∧ s.cfg.vfReset = true then 0x00#8 else if r = x then s.getV x ||| s.getV y else s.getV r) ∧
    (∃ t, exec (.andReg x y) s = .next t ∧ Unchanged [.v] s t ∧ ∀ r, t.getV r =
      if r = 0xF#4 ∧ s.cfg.vfReset = true then 0x00#8 else if r = x then s.getV x &&& s.getV y else s.getV r) ∧
    (∃ t, exec (.xorReg x y) s = .next t ∧ Unchanged [.v] s t ∧ ∀ r, t.getV r =
      if r = 0xF#4 ∧ s.cfg.vfReset = true then 0x00#8 else if r = x then s.getV x ^^^ s.getV y else s.getV r)

/-- The wrapped sum, then VF, 1 iff the unclamped sum exceeds 255 (43_alu.md R92). Operands read first, VF written last:
decisions D13 and D12, log 10. Opcode values: log 1. -/
def Obligations.AddWritesTheSumThenTheCarry : Prop :=
  Encodes 0xF00F#16 0x8004#16 (fun op => .addReg (fieldX op) (fieldY op)) ∧
  ∀ (x y : RegIx) (s : State), ∃ t, exec (.addReg x y) s = .next t ∧ Unchanged [.v] s t ∧ ∀ r, t.getV r =
    if r = 0xF#4 then (if 255 < (s.getV x).toNat + (s.getV y).toNat then 0x01#8 else 0x00#8)
    else if r = x then BitVec.ofNat 8 (((s.getV x).toNat + (s.getV y).toNat) % 256) else s.getV r

/-- The wrapped difference, then VF, 1 iff the minuend is strictly greater (43_alu.md R93, R95). Operands read first, VF
written last: decisions D13 and D12, log 10. Opcode values: log 1. -/
def Obligations.SubtractionsWriteTheDifferenceThenNoBorrow : Prop :=
  Encodes 0xF00F#16 0x8005#16 (fun op => .sub (fieldX op) (fieldY op)) ∧
  Encodes 0xF00F#16 0x8007#16 (fun op => .subn (fieldX op) (fieldY op)) ∧
  ∀ (x y : RegIx) (s : State),
    (∃ t, exec (.sub x y) s = .next t ∧ Unchanged [.v] s t ∧ ∀ r, t.getV r =
      if r = 0xF#4 then (if (s.getV y).toNat < (s.getV x).toNat then 0x01#8 else 0x00#8)
      else if r = x then BitVec.ofNat 8 ((256 + (s.getV x).toNat - (s.getV y).toNat) % 256) else s.getV r) ∧
    (∃ t, exec (.subn x y) s = .next t ∧ Unchanged [.v] s t ∧ ∀ r, t.getV r =
      if r = 0xF#4 then (if (s.getV x).toNat < (s.getV y).toNat then 0x01#8 else 0x00#8)
      else if r = x then BitVec.ofNat 8 ((256 + (s.getV y).toNat - (s.getV x).toNat) % 256) else s.getV r)

/-- The shift by one of Vy, or of Vx where `Q_SHIFT_COPY` is 0, then VF, the bit shifted out (43_alu.md R94, R96).
Operands read first, VF written last: decisions D13 and D12, log 10. Opcode values: log 1. -/
def Obligations.ShiftsWriteTheResultThenTheBitShiftedOut : Prop :=
  Encodes 0xF00F#16 0x8006#16 (fun op => .shr (fieldX op) (fieldY op)) ∧
  Encodes 0xF00F#16 0x800E#16 (fun op => .shl (fieldX op) (fieldY op)) ∧
  ∀ (x y : RegIx) (s : State) (src : Nat),
    src = (if s.cfg.shiftCopy = true then (s.getV y).toNat else (s.getV x).toNat) →
    (∃ t, exec (.shr x y) s = .next t ∧ Unchanged [.v] s t ∧ ∀ r, t.getV r =
      if r = 0xF#4 then BitVec.ofNat 8 (src % 2) else if r = x then BitVec.ofNat 8 (src / 2) else s.getV r) ∧
    (∃ t, exec (.shl x y) s = .next t ∧ Unchanged [.v] s t ∧ ∀ r, t.getV r =
      if r = 0xF#4 then BitVec.ofNat 8 (src / 128) else if r = x then BitVec.ofNat 8 (2 * src % 256) else s.getV r)

/-! ### Random, key-wait and timers -/

/-- CXNN: the caller's byte and the literal, or a free byte and the literal where the caller's is left open
(44_rand_keys_timers.md R98; the free byte and its counter are the model's, log 13). Opcode values: log 1. -/
def Obligations.RndMasksTheRandomByte : Prop :=
  Encodes 0xF000#16 0xC000#16 (fun op => .rnd (fieldX op) (fieldNN op)) ∧
  ∀ (x : RegIx) (nn : Byte) (s : State), ∃ t, exec (.rnd x nn) s = .next t ∧
    (∀ b, s.rand = some b → t.getV x = b &&& nn) ∧
    (s.rand = none → t.getV x = Config.randByte s.randCount &&& nn) ∧
    t.randCount = s.randCount + 1 ∧ RegsUnchanged [x] s t ∧ Unchanged [.v, .randCount] s t

/-- 44_rand_keys_timers.md R101, R103, R104: reading DT, writing DT and ST. Their Encoding lines are in
`PlainRowsDecodeWithTheirFields`. -/
def Obligations.TimerTransfersMoveTheByte : Prop :=
  ∀ (x : RegIx) (s : State),
    (∃ t, exec (.ldVxDt x) s = .next t ∧ t.getV x = s.dt ∧ RegsUnchanged [x] s t ∧ Unchanged [.v] s t) ∧
    (∃ t, exec (.ldDtVx x) s = .next t ∧ t.dt = s.getV x ∧ Unchanged [.dt] s t) ∧
    (∃ t, exec (.ldStVx x) s = .next t ∧ t.st = s.getV x ∧ Unchanged [.st] s t)

/-- FX0A sets the latch and remembers the register; no register is written yet, whatever the key lines
(44_rand_keys_timers.md R102; a key held now is not sampled: decision D16, log 12). Opcode values: log 1. -/
def Obligations.LdKEntersKeyWait : Prop :=
  Encodes 0xF0FF#16 0xF00A#16 (fun op => .ldVxK (fieldX op)) ∧
  ∀ (x : RegIx) (s : State), ∃ t, exec (.ldVxK x) s = .next t ∧ t.wait = true ∧ t.waitReg = x ∧
    Unchanged [.wait, .waitReg] s t

/-! ### The index register and memory transfers -/

/-- ANNN and FX29 (45_index_memory.md R105, R107): ANNN is the spec's decision D2 (log 2), the unmasked font lookup its
decision D30 (log 21). Opcode values: log 1. -/
def Obligations.IndexLoadsSetI : Prop :=
  Encodes 0xF000#16 0xA000#16 (fun op => .ldI (fieldNNN op)) ∧
  Encodes 0xF0FF#16 0xF029#16 (fun op => .ldF (fieldX op)) ∧
  (∀ (nnn : Addr) (s : State), ∃ t, exec (.ldI nnn) s = .next t ∧ t.i.toNat = nnn.toNat ∧ Unchanged [.i] s t) ∧
  (∀ (x : RegIx) (s : State), ∃ t, exec (.ldF x) s = .next t ∧ t.i.toNat = 0x050 + (s.getV x).toNat * 5 ∧
    Unchanged [.i] s t)

/-- FX1E (45_index_memory.md R106): I in 16 bits (decision D6, log 5); VF only where `Q_I_OVERFLOW` is set (the flag's
meaning is the spec's decision D10, log 8), read first and written last (log 10). Opcode values: log 1. -/
def Obligations.AddIWrapsAndFlagsOnlyByOption : Prop :=
  Encodes 0xF0FF#16 0xF01E#16 (fun op => .addI (fieldX op)) ∧
  ∀ (x : RegIx) (s : State), ∃ t, exec (.addI x) s = .next t ∧
    t.i.toNat = (s.i.toNat + (s.getV x).toNat) % 65536 ∧ Unchanged [.i, .v] s t ∧
    ∀ r, t.getV r = if r = 0xF#4 ∧ s.cfg.iOverflow = true then
      (if 0x0FFF < s.i.toNat + (s.getV x).toNat then 0x01#8 else 0x00#8) else s.getV r

/-- FX33 (45_index_memory.md R108): the three decimal digits at I, I + 1 and I + 2, each through `Ea` (decision D5, log
4; 16-bit sums: decision D6, log 5), and no other byte. Opcode values: log 1. -/
def Obligations.LdBStoresTheDecimalDigits : Prop :=
  Encodes 0xF0FF#16 0xF033#16 (fun op => .ldB (fieldX op)) ∧
  ∀ (x : RegIx) (s : State), ∃ t, exec (.ldB x) s = .next t ∧
    (t.readByte s.i).toNat = (s.getV x).toNat / 100 ∧
    (t.readByte (s.i + 1#16)).toNat = (s.getV x).toNat / 10 % 10 ∧
    (t.readByte (s.i + 2#16)).toNat = (s.getV x).toNat % 10 ∧
    BytesUnchanged [ea s.i, ea (s.i + 1#16), ea (s.i + 2#16)] s t ∧ Unchanged [.mem] s t

/-- FX55 (45_index_memory.md R109): V0 to VX at I, I + 1, …, no other byte, and I moved by X + 1 where `Q_MEM_INC_I` is
set. Cells through `Ea`: decision D5, log 4; 16-bit sums: decision D6, log 5. Opcode values: log 1. -/
def Obligations.BlockStoreWritesV0ToVx : Prop :=
  Encodes 0xF0FF#16 0xF055#16 (fun op => .stRegs (fieldX op)) ∧
  ∀ (x : RegIx) (s : State), ∃ t, exec (.stRegs x) s = .next t ∧
    (∀ k : RegIx, k.toNat ≤ x.toNat → t.readByte (s.i + BitVec.ofNat 16 k.toNat) = s.getV k) ∧
    BytesUnchanged ((List.range (x.toNat + 1)).map fun k => ea (s.i + BitVec.ofNat 16 k)) s t ∧
    t.i.toNat = (if s.cfg.memIncI = true then (s.i.toNat + (x.toNat + 1)) % 65536 else s.i.toNat) ∧
    Unchanged [.mem, .i] s t

/-- FX65 (45_index_memory.md R110): V0 to VX from I, I + 1, …, no other register, and I moved by X + 1 where
`Q_MEM_INC_I` is set. Cells through `Ea`: decision D5, log 4; 16-bit sums: decision D6, log 5. Opcode values: log 1. -/
def Obligations.BlockLoadReadsV0ToVx : Prop :=
  Encodes 0xF0FF#16 0xF065#16 (fun op => .ldRegs (fieldX op)) ∧
  ∀ (x : RegIx) (s : State), ∃ t, exec (.ldRegs x) s = .next t ∧
    (∀ k : RegIx, t.getV k =
      if k.toNat ≤ x.toNat then s.readByte (s.i + BitVec.ofNat 16 k.toNat) else s.getV k) ∧
    t.i.toNat = (if s.cfg.memIncI = true then (s.i.toNat + (x.toNat + 1)) % 65536 else s.i.toNat) ∧
    Unchanged [.v, .i] s t

/-- What FX55 stores FX65 loads back: from I and memory as the store used and left them, V0 to VX get the values they
had before the store (45_index_memory.md R109, R110; cells through `Ea`: log 4; 16-bit sums: log 5). -/
def Obligations.BlockStoreThenLoadRestoresRegisters : Prop :=
  ∀ (x : RegIx) (s : State), ∃ t, exec (.stRegs x) s = .next t ∧
    ∀ u : State, u.i = s.i → (∀ a, u.readByte a = t.readByte a) →
      ∃ w, exec (.ldRegs x) u = .next w ∧ ∀ k : RegIx, k.toNat ≤ x.toNat → w.getV k = s.getV k

/-- Self-modifying code: a register stored where the next word lies is what the next fetch reads (20_memory.md R49;
70_reset_and_hazards.md R145; coherence: decision D24, log 22; cells through `Ea`: log 4; 16-bit sums: log 5). -/
def Obligations.NextFetchSeesTheBlockStore : Prop :=
  ∀ (x k : RegIx) (s : State), k.toNat ≤ x.toNat → ∃ t, exec (.stRegs x) s = .next t ∧
    (ea (s.i + BitVec.ofNat 16 k.toNat) = ea s.pc → highByte t.fetchWord = s.getV k) ∧
    (ea (s.i + BitVec.ofNat 16 k.toNat) = ea (s.pc + 1#16) → lowByte t.fetchWord = s.getV k)

/-- The font glyph FX29 points at: while the cells 0x050-0x09F hold the font, whatever program is loaded, I reaches the
five rows of the digit (10_state.md R27; 45_index_memory.md R107), for every font (decision D20, log 15). -/
def Obligations.GlyphLookupReachesTheFont : Prop :=
  ∀ (x : RegIx) (s : State) (d : Fin 16) (j : Fin 5),
    (∀ m : Fin 80, s.readByte (0x0050#16 + BitVec.ofNat 16 m.val) = s.cfg.font[m.val]) → (s.getV x).toNat = d.val →
    ∃ t, exec (.ldF x) s = .next t ∧
      s.cfg.font[5 * d.val + j.val]? = some (t.readByte (t.i + BitVec.ofNat 16 j.val))

/-! ### Sprite draw -/

/-- The draw cell by cell (46_draw.md R111-R119): each cell is toggled by the sprite bit that falls on it, VF is 1 iff a
toggled cell was on, REDRAW is 1, and nothing else changes. The rasterizer's loops against the closed form
`State.spriteBit`. The wrap setting is the spec's decision D11, N = 0 its decision D14 (log 9); the coordinates are read
before VF is written (log 10); the sprite's bytes are read through `Ea` (log 4) at 16-bit sums (log 5). Opcode values:
log 1. -/
def Obligations.DrawTogglesTheSpriteBits : Prop :=
  Encodes 0xF000#16 0xD000#16 (fun op => .drw (fieldX op) (fieldY op) (fieldN op)) ∧
  ∀ (x y : RegIx) (n : Nibble) (s : State), ∃ t, exec (.drw x y n) s = .next t ∧
    (∀ cx cy, cx < 64 → cy < 32 → t.disp.cell cx cy =
      (s.disp.cell cx cy ^^
        s.spriteBit ((s.getV x).toNat % 64) ((s.getV y).toNat % 32) n.toNat cx cy)) ∧
    (∀ r, r ≠ 0xF#4 → t.getV r = s.getV r) ∧
    (t.getV 0xF#4 = 0x00#8 ∨ t.getV 0xF#4 = 0x01#8) ∧
    (t.getV 0xF#4 = 0x01#8 ↔ ∃ cx cy, cx < 64 ∧ cy < 32 ∧ s.disp.cell cx cy = true ∧
      s.spriteBit ((s.getV x).toNat % 64) ((s.getV y).toNat % 32) n.toNat cx cy = true) ∧
    t.redraw = true ∧ Unchanged [.v, .disp, .redraw] s t

/-- The same sprite drawn twice at the same coordinates restores every cell, and the second draw collides iff some cell
under a visible set bit was off before the first (46_draw.md R120). The coordinates are not in VF, which the draw
writes. The wrap setting and N = 0: log 9; `Ea`: log 4. -/
def Obligations.DrawTwiceRestoresTheDisplay : Prop :=
  ∀ (x y : RegIx) (n : Nibble) (s : State), x ≠ 0xF#4 → y ≠ 0xF#4 →
    ∃ t u, exec (.drw x y n) s = .next t ∧ exec (.drw x y n) t = .next u ∧
      (∀ cx cy, cx < 64 → cy < 32 → u.disp.cell cx cy = s.disp.cell cx cy) ∧
      (u.getV 0xF#4 = 0x01#8 ↔ ∃ cx cy, cx < 64 ∧ cy < 32 ∧ s.disp.cell cx cy = false ∧
        s.spriteBit ((s.getV x).toNat % 64) ((s.getV y).toNat % 32) n.toNat cx cy = true)

/-- Without wrap, no cell left of the start column or above the start row changes, nor any cell 8 or more columns or N
or more rows past it (46_draw.md R114, R120; N = 0: decision D14, log 9). -/
def Obligations.ClippedDrawStaysInItsRectangle : Prop :=
  ∀ (x y : RegIx) (n : Nibble) (s : State), s.cfg.displayWrap = false →
    ∃ t, exec (.drw x y n) s = .next t ∧
      ∀ cx cy, cx < 64 → cy < 32 →
        (cx < (s.getV x).toNat % 64 ∨ (s.getV x).toNat % 64 + 8 ≤ cx ∨ cy < (s.getV y).toNat % 32 ∨
          (s.getV y).toNat % 32 + n.toNat ≤ cy) →
        t.disp.cell cx cy = s.disp.cell cx cy

/-! ### The Encoding lines of the rules whose results are stated without them -/

/-- The Encoding lines of 41_display_control.md R75 and R77, 43_alu.md R85, R86 and R88, and 44_rand_keys_timers.md R101,
R103 and R104: every word of the row decodes to the instruction with its fields. Opcode values: log 1; the ignored nibble
of 00E0: log 3. -/
def Obligations.PlainRowsDecodeWithTheirFields : Prop :=
  Encodes 0xF0FF#16 0x00E0#16 (fun op => .cls (fieldX op)) ∧
  Encodes 0xF000#16 0x1000#16 (fun op => .jp (fieldNNN op)) ∧
  Encodes 0xF000#16 0x6000#16 (fun op => .ldImm (fieldX op) (fieldNN op)) ∧
  Encodes 0xF000#16 0x7000#16 (fun op => .addImm (fieldX op) (fieldNN op)) ∧
  Encodes 0xF00F#16 0x8000#16 (fun op => .ldReg (fieldX op) (fieldY op)) ∧
  Encodes 0xF0FF#16 0xF007#16 (fun op => .ldVxDt (fieldX op)) ∧
  Encodes 0xF0FF#16 0xF015#16 (fun op => .ldDtVx (fieldX op)) ∧
  Encodes 0xF0FF#16 0xF018#16 (fun op => .ldStVx (fieldX op))
end

