-- ==== Sys2Proof/Laws/Decode.lean ====
section
/-! SUPPORT. The fields of a word of each format (30_encoding.md R52): what the decoder's field readers give on the words the
encoder makes. -/

namespace Sys2Proof

theorem toNat_append_eq {v w : Nat} (a : BitVec v) (b : BitVec w) : (a ++ b).toNat = a.toNat * 2 ^ w + b.toNat := by
  rw [BitVec.toNat_append, ← Nat.shiftLeft_add_eq_or_of_lt b.isLt, Nat.shiftLeft_eq]

theorem fieldF_toNat (op : Word) : (fieldF op).toNat = op.toNat / 4096 := by
  have := op.isLt
  simp only [fieldF, BitVec.extractLsb'_toNat, Nat.shiftRight_eq_div_pow]; omega

theorem fieldX_toNat (op : Word) : (fieldX op).toNat = op.toNat / 256 % 16 := by
  simp only [fieldX, BitVec.extractLsb'_toNat, Nat.shiftRight_eq_div_pow]

theorem fieldY_toNat (op : Word) : (fieldY op).toNat = op.toNat / 16 % 16 := by
  simp only [fieldY, BitVec.extractLsb'_toNat, Nat.shiftRight_eq_div_pow]

theorem fieldN_toNat (op : Word) : (fieldN op).toNat = op.toNat % 16 := by
  simp only [fieldN, BitVec.extractLsb'_toNat, Nat.shiftRight_eq_div_pow]; norm_num

theorem fieldNN_toNat (op : Word) : (fieldNN op).toNat = op.toNat % 256 := by
  simp only [fieldNN, BitVec.extractLsb'_toNat, Nat.shiftRight_eq_div_pow]; norm_num

theorem fieldNNN_toNat (op : Word) : (fieldNNN op).toNat = op.toNat % 4096 := by
  simp only [fieldNNN, BitVec.extractLsb'_toNat, Nat.shiftRight_eq_div_pow]; norm_num

section Formats
variable (f x y n : Nibble) (nn : Byte) (nnn : Addr)

/-! Format A: `F NNN`. -/

theorem fieldF_formatA : fieldF (f ++ nnn) = f := by
  apply BitVec.eq_of_toNat_eq; rw [fieldF_toNat, toNat_append_eq]; have := nnn.isLt; omega

theorem fieldNNN_formatA : fieldNNN (f ++ nnn) = nnn := by
  apply BitVec.eq_of_toNat_eq; rw [fieldNNN_toNat, toNat_append_eq]; have := nnn.isLt; omega

/-! Formats B and Z: `F X NN`. -/

theorem fieldF_formatB : fieldF (f ++ x ++ nn) = f := by
  apply BitVec.eq_of_toNat_eq; rw [fieldF_toNat, toNat_append_eq, toNat_append_eq]
  have := nn.isLt; have := x.isLt; omega

theorem fieldX_formatB : fieldX (f ++ x ++ nn) = x := by
  apply BitVec.eq_of_toNat_eq; rw [fieldX_toNat, toNat_append_eq, toNat_append_eq]
  have := nn.isLt; have := x.isLt; omega

theorem fieldNN_formatB : fieldNN (f ++ x ++ nn) = nn := by
  apply BitVec.eq_of_toNat_eq; rw [fieldNN_toNat, toNat_append_eq, toNat_append_eq]
  have := nn.isLt; have := x.isLt; omega

/-! Format C: `F X Y N`. -/

theorem toNat_formatC : (f ++ x ++ y ++ n : Word).toNat = f.toNat * 4096 + x.toNat * 256 + y.toNat * 16 + n.toNat := by
  rw [toNat_append_eq, toNat_append_eq, toNat_append_eq]; omega

theorem fieldF_formatC : fieldF (f ++ x ++ y ++ n) = f := by
  apply BitVec.eq_of_toNat_eq; rw [fieldF_toNat, toNat_formatC]
  have := n.isLt; have := x.isLt; have := y.isLt; omega

theorem fieldX_formatC : fieldX (f ++ x ++ y ++ n) = x := by
  apply BitVec.eq_of_toNat_eq; rw [fieldX_toNat, toNat_formatC]
  have := n.isLt; have := x.isLt; have := y.isLt; omega

theorem fieldY_formatC : fieldY (f ++ x ++ y ++ n) = y := by
  apply BitVec.eq_of_toNat_eq; rw [fieldY_toNat, toNat_formatC]
  have := n.isLt; have := x.isLt; have := y.isLt; omega

theorem fieldN_formatC : fieldN (f ++ x ++ y ++ n) = n := by
  apply BitVec.eq_of_toNat_eq; rw [fieldN_toNat, toNat_formatC]
  have := n.isLt; have := x.isLt; have := y.isLt; omega

end Formats

/-- A word is its two bytes in memory order. -/
theorem composeWord_bytes (w : Word) : composeWord (highByte w) (lowByte w) = w := by
  apply BitVec.eq_of_toNat_eq
  rw [composeWord, toNat_append_eq]
  simp only [highByte, lowByte, BitVec.extractLsb'_toNat, Nat.shiftRight_eq_div_pow]
  have := w.isLt; omega

theorem highByte_composeWord (a b : Byte) : highByte (composeWord a b) = a := by
  apply BitVec.eq_of_toNat_eq
  simp only [highByte, composeWord, BitVec.extractLsb'_toNat, Nat.shiftRight_eq_div_pow, toNat_append_eq]
  have := a.isLt; have := b.isLt; omega

theorem lowByte_composeWord (a b : Byte) : lowByte (composeWord a b) = b := by
  apply BitVec.eq_of_toNat_eq
  simp only [lowByte, composeWord, BitVec.extractLsb'_toNat, Nat.shiftRight_eq_div_pow, toNat_append_eq]
  have := a.isLt; have := b.isLt; omega

/-- A word of the table laid out in bytes is decoded as that word. -/
theorem decodeTableWord_eq (nbits w : Nat) :
    decodeTableWord nbits w = (decodeWord (tableWord nbits w)).toOption := by
  simp only [decodeTableWord, decodeBytes, composeWord_bytes]
  cases decodeWord (tableWord nbits w) <;> rfl

end Sys2Proof
end

