-- ==== Sys2Proof/Laws/Memory.lean ====
section
/-! SUPPORT. The laws of memory: what a cell reads as after a write, and that every memory operation keeps the canonical
form. -/

namespace Sys2Proof
namespace Machine

theorem Memory.lookup_put (m : Memory) (a c : Nat) (b : Byte) :
    (m.put a b).lookup c = if c = a then some b else m.lookup c := by
  induction m with
  | nil => simp [Memory.put, Memory.lookup, eq_comm]
  | cons p m ih =>
    obtain ⟨k, d⟩ := p
    rw [Memory.put]
    by_cases h1 : a < k
    · simp only [if_pos h1, Memory.lookup, eq_comm]
    · by_cases h2 : a = k
      · subst h2; simp only [lt_irrefl, if_false, if_true, Memory.lookup]
        split_ifs <;> first | rfl | omega
      · simp only [if_neg h1, if_neg h2, Memory.lookup, ih]
        split_ifs <;> first | rfl | omega

theorem Memory.lookup_forget (m : Memory) (a c : Nat) :
    (m.forget a).lookup c = if c = a then none else m.lookup c := by
  induction m with
  | nil => simp [Memory.forget, Memory.lookup]
  | cons p m ih =>
    obtain ⟨k, d⟩ := p
    unfold Memory.forget at ih ⊢
    by_cases hk : k = a
    · subst hk; simp only [List.filter, bne_self_eq_false, ih, Memory.lookup]
      split_ifs with h1 h2 <;> first | rfl | omega
    · have : (k != a) = true := by simpa using hk
      simp only [List.filter, this, Memory.lookup, ih]
      split_ifs <;> first | rfl | omega

/-- A read after a write: the byte written at its own cell, the old byte elsewhere. -/
theorem Memory.read_write (font : Config.Font) (m : Memory) (a c : Nat) (b : Byte) :
    Memory.read font (Memory.write font m a b) c = if c = a then b else Memory.read font m c := by
  unfold Memory.read Memory.write
  split_ifs with h1 h2 h2
  · simp [Memory.lookup_forget, h2, h1]
  · simp [Memory.lookup_forget, h2]
  · simp [Memory.lookup_put, h2]
  · simp [Memory.lookup_put, h2]

/-- The empty list is in canonical form. -/
theorem Memory.wf_nil (font : Config.Font) : Memory.wf font [] := by simp [Memory.wf]

theorem Memory.wf_forget {font : Config.Font} {m : Memory} (h : Memory.wf font m) (a : Nat) :
    Memory.wf font (m.forget a) :=
  ⟨h.1.filter _, fun p hp => h.2 p (List.mem_of_mem_filter hp)⟩

theorem Memory.mem_put {m : Memory} {a : Nat} {b : Byte} {p : Host.Cell} (h : p ∈ m.put a b) :
    p = (a, b) ∨ p ∈ m := by
  induction m with
  | nil => simpa [Memory.put] using h
  | cons q m ih =>
    obtain ⟨k, d⟩ := q
    unfold Memory.put at h
    split_ifs at h <;> simp only [List.mem_cons] at h ⊢ <;> tauto

theorem Memory.pairwise_put {m : Memory} (h : m.Pairwise fun p q => p.1 < q.1) (a : Nat) (b : Byte) :
    (m.put a b).Pairwise fun p q => p.1 < q.1 := by
  induction m with
  | nil => simp [Memory.put]
  | cons q m ih =>
    obtain ⟨k, d⟩ := q
    obtain ⟨hk, hm⟩ := List.pairwise_cons.1 h
    unfold Memory.put
    split_ifs with h1 h2
    · refine List.pairwise_cons.2 ⟨fun p hp => ?_, h⟩
      rcases List.mem_cons.1 hp with rfl | hp
      · exact h1
      · exact lt_trans h1 (hk p hp)
    · subst h2; exact List.pairwise_cons.2 ⟨hk, hm⟩
    · refine List.pairwise_cons.2 ⟨fun p hp => ?_, ih hm⟩
      rcases Memory.mem_put hp with rfl | hp
      · show k < a; omega
      · exact hk p hp

theorem Memory.wf_put {font : Config.Font} {m : Memory} (h : Memory.wf font m) {a : Nat} {b : Byte}
    (ha : a < Config.memSize) (hb : b ≠ Memory.unlisted font a) : Memory.wf font (m.put a b) := by
  refine ⟨Memory.pairwise_put h.1 a b, fun p hp => ?_⟩
  rcases Memory.mem_put hp with rfl | hp
  · exact ⟨ha, hb⟩
  · exact h.2 p hp

/-- A write below 4096 keeps the canonical form. -/
theorem Memory.wf_write {font : Config.Font} {m : Memory} (h : Memory.wf font m) {a : Nat} (ha : a < Config.memSize)
    (b : Byte) : Memory.wf font (Memory.write font m a b) := by
  unfold Memory.write
  split_ifs with hb
  · exact Memory.wf_forget h a
  · exact Memory.wf_put h ha hb

/-- `Ea` reaches only cells that exist (20_memory.md R35). -/
theorem ea_lt (a : Word) : (ea a).toNat < Config.memSize := (ea a).isLt

/-- A byte read after a byte written through `Ea`. -/
theorem State.readByte_writeByte (s : State) (a c : Word) (b : Byte) :
    (s.writeByte a b).readByte c = if ea c = ea a then b else s.readByte c := by
  simp only [State.readByte, State.writeByte, Memory.read_write, BitVec.toNat_inj]

/-- Writing a byte keeps memory's canonical form. -/
theorem State.writeByte_wf {s : State} (h : Memory.wf s.cfg.font s.mem) (a : Word) (b : Byte) :
    Memory.wf (s.writeByte a b).cfg.font (s.writeByte a b).mem :=
  Memory.wf_write h (ea_lt a) b

/-- Memory right after reset is in canonical form, whatever the font. -/
theorem State.resetWith_wf (c : Config.Options) :
    Memory.wf (State.resetWith c).cfg.font (State.resetWith c).mem :=
  Memory.wf_nil c.font

/-- Equal memories and options read alike. -/
theorem State.readByte_congr {s t : State} (hc : t.cfg = s.cfg) (hm : t.mem = s.mem) (a : Word) :
    t.readByte a = s.readByte a := by
  unfold State.readByte; rw [hc, hm]

end Machine
end Sys2Proof
end

