-- ==== Sys2Proof/Laws/State.lean ====
section
/-! SUPPORT. One lemma per field per update of the state: what each named update writes, and that it leaves every other
field alone. All but the conditional updates hold by definition. -/

namespace Sys2Proof
namespace Machine

variable (s : State)

/-! ### setV -/

@[simp] theorem State.setV_v (x : RegIx) (b : Byte) : (s.setV x b).v = s.v.set x.toNat b x.isLt := rfl
@[simp] theorem State.setV_pc (x : RegIx) (b : Byte) : (s.setV x b).pc = s.pc := rfl
@[simp] theorem State.setV_i (x : RegIx) (b : Byte) : (s.setV x b).i = s.i := rfl
@[simp] theorem State.setV_stack (x : RegIx) (b : Byte) : (s.setV x b).stack = s.stack := rfl
@[simp] theorem State.setV_sp (x : RegIx) (b : Byte) : (s.setV x b).sp = s.sp := rfl
@[simp] theorem State.setV_dt (x : RegIx) (b : Byte) : (s.setV x b).dt = s.dt := rfl
@[simp] theorem State.setV_st (x : RegIx) (b : Byte) : (s.setV x b).st = s.st := rfl
@[simp] theorem State.setV_mem (x : RegIx) (b : Byte) : (s.setV x b).mem = s.mem := rfl
@[simp] theorem State.setV_disp (x : RegIx) (b : Byte) : (s.setV x b).disp = s.disp := rfl
@[simp] theorem State.setV_redraw (x : RegIx) (b : Byte) : (s.setV x b).redraw = s.redraw := rfl
@[simp] theorem State.setV_wait (x : RegIx) (b : Byte) : (s.setV x b).wait = s.wait := rfl
@[simp] theorem State.setV_waitReg (x : RegIx) (b : Byte) : (s.setV x b).waitReg = s.waitReg := rfl
@[simp] theorem State.setV_keys (x : RegIx) (b : Byte) : (s.setV x b).keys = s.keys := rfl
@[simp] theorem State.setV_diag (x : RegIx) (b : Byte) : (s.setV x b).diag = s.diag := rfl
@[simp] theorem State.setV_rand (x : RegIx) (b : Byte) : (s.setV x b).rand = s.rand := rfl
@[simp] theorem State.setV_cfg (x : RegIx) (b : Byte) : (s.setV x b).cfg = s.cfg := rfl
@[simp] theorem State.setV_loadWindow (x : RegIx) (b : Byte) : (s.setV x b).loadWindow = s.loadWindow := rfl
@[simp] theorem State.setV_schedule (x : RegIx) (b : Byte) : (s.setV x b).schedule = s.schedule := rfl
@[simp] theorem State.setV_randCount (x : RegIx) (b : Byte) : (s.setV x b).randCount = s.randCount := rfl

/-! ### setVF -/

@[simp] theorem State.setVF_v (b : Byte) : (s.setVF b).v = s.v.set vf.toNat b vf.isLt := rfl
@[simp] theorem State.setVF_pc (b : Byte) : (s.setVF b).pc = s.pc := rfl
@[simp] theorem State.setVF_i (b : Byte) : (s.setVF b).i = s.i := rfl
@[simp] theorem State.setVF_stack (b : Byte) : (s.setVF b).stack = s.stack := rfl
@[simp] theorem State.setVF_sp (b : Byte) : (s.setVF b).sp = s.sp := rfl
@[simp] theorem State.setVF_dt (b : Byte) : (s.setVF b).dt = s.dt := rfl
@[simp] theorem State.setVF_st (b : Byte) : (s.setVF b).st = s.st := rfl
@[simp] theorem State.setVF_mem (b : Byte) : (s.setVF b).mem = s.mem := rfl
@[simp] theorem State.setVF_disp (b : Byte) : (s.setVF b).disp = s.disp := rfl
@[simp] theorem State.setVF_redraw (b : Byte) : (s.setVF b).redraw = s.redraw := rfl
@[simp] theorem State.setVF_wait (b : Byte) : (s.setVF b).wait = s.wait := rfl
@[simp] theorem State.setVF_waitReg (b : Byte) : (s.setVF b).waitReg = s.waitReg := rfl
@[simp] theorem State.setVF_keys (b : Byte) : (s.setVF b).keys = s.keys := rfl
@[simp] theorem State.setVF_diag (b : Byte) : (s.setVF b).diag = s.diag := rfl
@[simp] theorem State.setVF_rand (b : Byte) : (s.setVF b).rand = s.rand := rfl
@[simp] theorem State.setVF_cfg (b : Byte) : (s.setVF b).cfg = s.cfg := rfl
@[simp] theorem State.setVF_loadWindow (b : Byte) : (s.setVF b).loadWindow = s.loadWindow := rfl
@[simp] theorem State.setVF_schedule (b : Byte) : (s.setVF b).schedule = s.schedule := rfl
@[simp] theorem State.setVF_randCount (b : Byte) : (s.setVF b).randCount = s.randCount := rfl

/-! ### setPc -/

@[simp] theorem State.setPc_v (w : Word) : (s.setPc w).v = s.v := rfl
@[simp] theorem State.setPc_pc (w : Word) : (s.setPc w).pc = w := rfl
@[simp] theorem State.setPc_i (w : Word) : (s.setPc w).i = s.i := rfl
@[simp] theorem State.setPc_stack (w : Word) : (s.setPc w).stack = s.stack := rfl
@[simp] theorem State.setPc_sp (w : Word) : (s.setPc w).sp = s.sp := rfl
@[simp] theorem State.setPc_dt (w : Word) : (s.setPc w).dt = s.dt := rfl
@[simp] theorem State.setPc_st (w : Word) : (s.setPc w).st = s.st := rfl
@[simp] theorem State.setPc_mem (w : Word) : (s.setPc w).mem = s.mem := rfl
@[simp] theorem State.setPc_disp (w : Word) : (s.setPc w).disp = s.disp := rfl
@[simp] theorem State.setPc_redraw (w : Word) : (s.setPc w).redraw = s.redraw := rfl
@[simp] theorem State.setPc_wait (w : Word) : (s.setPc w).wait = s.wait := rfl
@[simp] theorem State.setPc_waitReg (w : Word) : (s.setPc w).waitReg = s.waitReg := rfl
@[simp] theorem State.setPc_keys (w : Word) : (s.setPc w).keys = s.keys := rfl
@[simp] theorem State.setPc_diag (w : Word) : (s.setPc w).diag = s.diag := rfl
@[simp] theorem State.setPc_rand (w : Word) : (s.setPc w).rand = s.rand := rfl
@[simp] theorem State.setPc_cfg (w : Word) : (s.setPc w).cfg = s.cfg := rfl
@[simp] theorem State.setPc_loadWindow (w : Word) : (s.setPc w).loadWindow = s.loadWindow := rfl
@[simp] theorem State.setPc_schedule (w : Word) : (s.setPc w).schedule = s.schedule := rfl
@[simp] theorem State.setPc_randCount (w : Word) : (s.setPc w).randCount = s.randCount := rfl

/-! ### setI -/

@[simp] theorem State.setI_v (w : Word) : (s.setI w).v = s.v := rfl
@[simp] theorem State.setI_pc (w : Word) : (s.setI w).pc = s.pc := rfl
@[simp] theorem State.setI_i (w : Word) : (s.setI w).i = w := rfl
@[simp] theorem State.setI_stack (w : Word) : (s.setI w).stack = s.stack := rfl
@[simp] theorem State.setI_sp (w : Word) : (s.setI w).sp = s.sp := rfl
@[simp] theorem State.setI_dt (w : Word) : (s.setI w).dt = s.dt := rfl
@[simp] theorem State.setI_st (w : Word) : (s.setI w).st = s.st := rfl
@[simp] theorem State.setI_mem (w : Word) : (s.setI w).mem = s.mem := rfl
@[simp] theorem State.setI_disp (w : Word) : (s.setI w).disp = s.disp := rfl
@[simp] theorem State.setI_redraw (w : Word) : (s.setI w).redraw = s.redraw := rfl
@[simp] theorem State.setI_wait (w : Word) : (s.setI w).wait = s.wait := rfl
@[simp] theorem State.setI_waitReg (w : Word) : (s.setI w).waitReg = s.waitReg := rfl
@[simp] theorem State.setI_keys (w : Word) : (s.setI w).keys = s.keys := rfl
@[simp] theorem State.setI_diag (w : Word) : (s.setI w).diag = s.diag := rfl
@[simp] theorem State.setI_rand (w : Word) : (s.setI w).rand = s.rand := rfl
@[simp] theorem State.setI_cfg (w : Word) : (s.setI w).cfg = s.cfg := rfl
@[simp] theorem State.setI_loadWindow (w : Word) : (s.setI w).loadWindow = s.loadWindow := rfl
@[simp] theorem State.setI_schedule (w : Word) : (s.setI w).schedule = s.schedule := rfl
@[simp] theorem State.setI_randCount (w : Word) : (s.setI w).randCount = s.randCount := rfl

/-! ### setDt -/

@[simp] theorem State.setDt_v (b : Byte) : (s.setDt b).v = s.v := rfl
@[simp] theorem State.setDt_pc (b : Byte) : (s.setDt b).pc = s.pc := rfl
@[simp] theorem State.setDt_i (b : Byte) : (s.setDt b).i = s.i := rfl
@[simp] theorem State.setDt_stack (b : Byte) : (s.setDt b).stack = s.stack := rfl
@[simp] theorem State.setDt_sp (b : Byte) : (s.setDt b).sp = s.sp := rfl
@[simp] theorem State.setDt_dt (b : Byte) : (s.setDt b).dt = b := rfl
@[simp] theorem State.setDt_st (b : Byte) : (s.setDt b).st = s.st := rfl
@[simp] theorem State.setDt_mem (b : Byte) : (s.setDt b).mem = s.mem := rfl
@[simp] theorem State.setDt_disp (b : Byte) : (s.setDt b).disp = s.disp := rfl
@[simp] theorem State.setDt_redraw (b : Byte) : (s.setDt b).redraw = s.redraw := rfl
@[simp] theorem State.setDt_wait (b : Byte) : (s.setDt b).wait = s.wait := rfl
@[simp] theorem State.setDt_waitReg (b : Byte) : (s.setDt b).waitReg = s.waitReg := rfl
@[simp] theorem State.setDt_keys (b : Byte) : (s.setDt b).keys = s.keys := rfl
@[simp] theorem State.setDt_diag (b : Byte) : (s.setDt b).diag = s.diag := rfl
@[simp] theorem State.setDt_rand (b : Byte) : (s.setDt b).rand = s.rand := rfl
@[simp] theorem State.setDt_cfg (b : Byte) : (s.setDt b).cfg = s.cfg := rfl
@[simp] theorem State.setDt_loadWindow (b : Byte) : (s.setDt b).loadWindow = s.loadWindow := rfl
@[simp] theorem State.setDt_schedule (b : Byte) : (s.setDt b).schedule = s.schedule := rfl
@[simp] theorem State.setDt_randCount (b : Byte) : (s.setDt b).randCount = s.randCount := rfl

/-! ### setSt -/

@[simp] theorem State.setSt_v (b : Byte) : (s.setSt b).v = s.v := rfl
@[simp] theorem State.setSt_pc (b : Byte) : (s.setSt b).pc = s.pc := rfl
@[simp] theorem State.setSt_i (b : Byte) : (s.setSt b).i = s.i := rfl
@[simp] theorem State.setSt_stack (b : Byte) : (s.setSt b).stack = s.stack := rfl
@[simp] theorem State.setSt_sp (b : Byte) : (s.setSt b).sp = s.sp := rfl
@[simp] theorem State.setSt_dt (b : Byte) : (s.setSt b).dt = s.dt := rfl
@[simp] theorem State.setSt_st (b : Byte) : (s.setSt b).st = b := rfl
@[simp] theorem State.setSt_mem (b : Byte) : (s.setSt b).mem = s.mem := rfl
@[simp] theorem State.setSt_disp (b : Byte) : (s.setSt b).disp = s.disp := rfl
@[simp] theorem State.setSt_redraw (b : Byte) : (s.setSt b).redraw = s.redraw := rfl
@[simp] theorem State.setSt_wait (b : Byte) : (s.setSt b).wait = s.wait := rfl
@[simp] theorem State.setSt_waitReg (b : Byte) : (s.setSt b).waitReg = s.waitReg := rfl
@[simp] theorem State.setSt_keys (b : Byte) : (s.setSt b).keys = s.keys := rfl
@[simp] theorem State.setSt_diag (b : Byte) : (s.setSt b).diag = s.diag := rfl
@[simp] theorem State.setSt_rand (b : Byte) : (s.setSt b).rand = s.rand := rfl
@[simp] theorem State.setSt_cfg (b : Byte) : (s.setSt b).cfg = s.cfg := rfl
@[simp] theorem State.setSt_loadWindow (b : Byte) : (s.setSt b).loadWindow = s.loadWindow := rfl
@[simp] theorem State.setSt_schedule (b : Byte) : (s.setSt b).schedule = s.schedule := rfl
@[simp] theorem State.setSt_randCount (b : Byte) : (s.setSt b).randCount = s.randCount := rfl

/-! ### writeByte -/

@[simp] theorem State.writeByte_v (a : Word) (b : Byte) : (s.writeByte a b).v = s.v := rfl
@[simp] theorem State.writeByte_pc (a : Word) (b : Byte) : (s.writeByte a b).pc = s.pc := rfl
@[simp] theorem State.writeByte_i (a : Word) (b : Byte) : (s.writeByte a b).i = s.i := rfl
@[simp] theorem State.writeByte_stack (a : Word) (b : Byte) : (s.writeByte a b).stack = s.stack := rfl
@[simp] theorem State.writeByte_sp (a : Word) (b : Byte) : (s.writeByte a b).sp = s.sp := rfl
@[simp] theorem State.writeByte_dt (a : Word) (b : Byte) : (s.writeByte a b).dt = s.dt := rfl
@[simp] theorem State.writeByte_st (a : Word) (b : Byte) : (s.writeByte a b).st = s.st := rfl
@[simp] theorem State.writeByte_mem (a : Word) (b : Byte) : (s.writeByte a b).mem = Memory.write s.cfg.font s.mem (ea a).toNat b := rfl
@[simp] theorem State.writeByte_disp (a : Word) (b : Byte) : (s.writeByte a b).disp = s.disp := rfl
@[simp] theorem State.writeByte_redraw (a : Word) (b : Byte) : (s.writeByte a b).redraw = s.redraw := rfl
@[simp] theorem State.writeByte_wait (a : Word) (b : Byte) : (s.writeByte a b).wait = s.wait := rfl
@[simp] theorem State.writeByte_waitReg (a : Word) (b : Byte) : (s.writeByte a b).waitReg = s.waitReg := rfl
@[simp] theorem State.writeByte_keys (a : Word) (b : Byte) : (s.writeByte a b).keys = s.keys := rfl
@[simp] theorem State.writeByte_diag (a : Word) (b : Byte) : (s.writeByte a b).diag = s.diag := rfl
@[simp] theorem State.writeByte_rand (a : Word) (b : Byte) : (s.writeByte a b).rand = s.rand := rfl
@[simp] theorem State.writeByte_cfg (a : Word) (b : Byte) : (s.writeByte a b).cfg = s.cfg := rfl
@[simp] theorem State.writeByte_loadWindow (a : Word) (b : Byte) : (s.writeByte a b).loadWindow = s.loadWindow := rfl
@[simp] theorem State.writeByte_schedule (a : Word) (b : Byte) : (s.writeByte a b).schedule = s.schedule := rfl
@[simp] theorem State.writeByte_randCount (a : Word) (b : Byte) : (s.writeByte a b).randCount = s.randCount := rfl

/-! ### advance -/

@[simp] theorem State.advance_v : (s.advance).v = s.v := rfl
@[simp] theorem State.advance_pc : (s.advance).pc = s.pc + 2#16 := rfl
@[simp] theorem State.advance_i : (s.advance).i = s.i := rfl
@[simp] theorem State.advance_stack : (s.advance).stack = s.stack := rfl
@[simp] theorem State.advance_sp : (s.advance).sp = s.sp := rfl
@[simp] theorem State.advance_dt : (s.advance).dt = s.dt := rfl
@[simp] theorem State.advance_st : (s.advance).st = s.st := rfl
@[simp] theorem State.advance_mem : (s.advance).mem = s.mem := rfl
@[simp] theorem State.advance_disp : (s.advance).disp = s.disp := rfl
@[simp] theorem State.advance_redraw : (s.advance).redraw = s.redraw := rfl
@[simp] theorem State.advance_wait : (s.advance).wait = s.wait := rfl
@[simp] theorem State.advance_waitReg : (s.advance).waitReg = s.waitReg := rfl
@[simp] theorem State.advance_keys : (s.advance).keys = s.keys := rfl
@[simp] theorem State.advance_diag : (s.advance).diag = s.diag := rfl
@[simp] theorem State.advance_rand : (s.advance).rand = s.rand := rfl
@[simp] theorem State.advance_cfg : (s.advance).cfg = s.cfg := rfl
@[simp] theorem State.advance_loadWindow : (s.advance).loadWindow = false := rfl
@[simp] theorem State.advance_schedule : (s.advance).schedule = s.schedule := rfl
@[simp] theorem State.advance_randCount : (s.advance).randCount = s.randCount := rfl

/-! ### report -/

@[simp] theorem State.report_v (c : DiagCode) (a op : Word) : (s.report c a op).v = s.v := rfl
@[simp] theorem State.report_pc (c : DiagCode) (a op : Word) : (s.report c a op).pc = s.pc := rfl
@[simp] theorem State.report_i (c : DiagCode) (a op : Word) : (s.report c a op).i = s.i := rfl
@[simp] theorem State.report_stack (c : DiagCode) (a op : Word) : (s.report c a op).stack = s.stack := rfl
@[simp] theorem State.report_sp (c : DiagCode) (a op : Word) : (s.report c a op).sp = s.sp := rfl
@[simp] theorem State.report_dt (c : DiagCode) (a op : Word) : (s.report c a op).dt = s.dt := rfl
@[simp] theorem State.report_st (c : DiagCode) (a op : Word) : (s.report c a op).st = s.st := rfl
@[simp] theorem State.report_mem (c : DiagCode) (a op : Word) : (s.report c a op).mem = s.mem := rfl
@[simp] theorem State.report_disp (c : DiagCode) (a op : Word) : (s.report c a op).disp = s.disp := rfl
@[simp] theorem State.report_redraw (c : DiagCode) (a op : Word) : (s.report c a op).redraw = s.redraw := rfl
@[simp] theorem State.report_wait (c : DiagCode) (a op : Word) : (s.report c a op).wait = s.wait := rfl
@[simp] theorem State.report_waitReg (c : DiagCode) (a op : Word) : (s.report c a op).waitReg = s.waitReg := rfl
@[simp] theorem State.report_keys (c : DiagCode) (a op : Word) : (s.report c a op).keys = s.keys := rfl
@[simp] theorem State.report_diag (c : DiagCode) (a op : Word) : (s.report c a op).diag = s.diag ++ [{ code := c, pc := a, opcode := op }] := rfl
@[simp] theorem State.report_rand (c : DiagCode) (a op : Word) : (s.report c a op).rand = s.rand := rfl
@[simp] theorem State.report_cfg (c : DiagCode) (a op : Word) : (s.report c a op).cfg = s.cfg := rfl
@[simp] theorem State.report_loadWindow (c : DiagCode) (a op : Word) : (s.report c a op).loadWindow = s.loadWindow := rfl
@[simp] theorem State.report_schedule (c : DiagCode) (a op : Word) : (s.report c a op).schedule = s.schedule := rfl
@[simp] theorem State.report_randCount (c : DiagCode) (a op : Word) : (s.report c a op).randCount = s.randCount := rfl

/-! ### setDisp -/

@[simp] theorem State.setDisp_v (d : Display) : (s.setDisp d).v = s.v := rfl
@[simp] theorem State.setDisp_pc (d : Display) : (s.setDisp d).pc = s.pc := rfl
@[simp] theorem State.setDisp_i (d : Display) : (s.setDisp d).i = s.i := rfl
@[simp] theorem State.setDisp_stack (d : Display) : (s.setDisp d).stack = s.stack := rfl
@[simp] theorem State.setDisp_sp (d : Display) : (s.setDisp d).sp = s.sp := rfl
@[simp] theorem State.setDisp_dt (d : Display) : (s.setDisp d).dt = s.dt := rfl
@[simp] theorem State.setDisp_st (d : Display) : (s.setDisp d).st = s.st := rfl
@[simp] theorem State.setDisp_mem (d : Display) : (s.setDisp d).mem = s.mem := rfl
@[simp] theorem State.setDisp_disp (d : Display) : (s.setDisp d).disp = d := rfl
@[simp] theorem State.setDisp_redraw (d : Display) : (s.setDisp d).redraw = s.redraw := rfl
@[simp] theorem State.setDisp_wait (d : Display) : (s.setDisp d).wait = s.wait := rfl
@[simp] theorem State.setDisp_waitReg (d : Display) : (s.setDisp d).waitReg = s.waitReg := rfl
@[simp] theorem State.setDisp_keys (d : Display) : (s.setDisp d).keys = s.keys := rfl
@[simp] theorem State.setDisp_diag (d : Display) : (s.setDisp d).diag = s.diag := rfl
@[simp] theorem State.setDisp_rand (d : Display) : (s.setDisp d).rand = s.rand := rfl
@[simp] theorem State.setDisp_cfg (d : Display) : (s.setDisp d).cfg = s.cfg := rfl
@[simp] theorem State.setDisp_loadWindow (d : Display) : (s.setDisp d).loadWindow = s.loadWindow := rfl
@[simp] theorem State.setDisp_schedule (d : Display) : (s.setDisp d).schedule = s.schedule := rfl
@[simp] theorem State.setDisp_randCount (d : Display) : (s.setDisp d).randCount = s.randCount := rfl

/-! ### setRedraw -/

@[simp] theorem State.setRedraw_v (b : Bool) : (s.setRedraw b).v = s.v := rfl
@[simp] theorem State.setRedraw_pc (b : Bool) : (s.setRedraw b).pc = s.pc := rfl
@[simp] theorem State.setRedraw_i (b : Bool) : (s.setRedraw b).i = s.i := rfl
@[simp] theorem State.setRedraw_stack (b : Bool) : (s.setRedraw b).stack = s.stack := rfl
@[simp] theorem State.setRedraw_sp (b : Bool) : (s.setRedraw b).sp = s.sp := rfl
@[simp] theorem State.setRedraw_dt (b : Bool) : (s.setRedraw b).dt = s.dt := rfl
@[simp] theorem State.setRedraw_st (b : Bool) : (s.setRedraw b).st = s.st := rfl
@[simp] theorem State.setRedraw_mem (b : Bool) : (s.setRedraw b).mem = s.mem := rfl
@[simp] theorem State.setRedraw_disp (b : Bool) : (s.setRedraw b).disp = s.disp := rfl
@[simp] theorem State.setRedraw_redraw (b : Bool) : (s.setRedraw b).redraw = b := rfl
@[simp] theorem State.setRedraw_wait (b : Bool) : (s.setRedraw b).wait = s.wait := rfl
@[simp] theorem State.setRedraw_waitReg (b : Bool) : (s.setRedraw b).waitReg = s.waitReg := rfl
@[simp] theorem State.setRedraw_keys (b : Bool) : (s.setRedraw b).keys = s.keys := rfl
@[simp] theorem State.setRedraw_diag (b : Bool) : (s.setRedraw b).diag = s.diag := rfl
@[simp] theorem State.setRedraw_rand (b : Bool) : (s.setRedraw b).rand = s.rand := rfl
@[simp] theorem State.setRedraw_cfg (b : Bool) : (s.setRedraw b).cfg = s.cfg := rfl
@[simp] theorem State.setRedraw_loadWindow (b : Bool) : (s.setRedraw b).loadWindow = s.loadWindow := rfl
@[simp] theorem State.setRedraw_schedule (b : Bool) : (s.setRedraw b).schedule = s.schedule := rfl
@[simp] theorem State.setRedraw_randCount (b : Bool) : (s.setRedraw b).randCount = s.randCount := rfl

/-! ### enterWait -/

@[simp] theorem State.enterWait_v (x : RegIx) : (s.enterWait x).v = s.v := rfl
@[simp] theorem State.enterWait_pc (x : RegIx) : (s.enterWait x).pc = s.pc := rfl
@[simp] theorem State.enterWait_i (x : RegIx) : (s.enterWait x).i = s.i := rfl
@[simp] theorem State.enterWait_stack (x : RegIx) : (s.enterWait x).stack = s.stack := rfl
@[simp] theorem State.enterWait_sp (x : RegIx) : (s.enterWait x).sp = s.sp := rfl
@[simp] theorem State.enterWait_dt (x : RegIx) : (s.enterWait x).dt = s.dt := rfl
@[simp] theorem State.enterWait_st (x : RegIx) : (s.enterWait x).st = s.st := rfl
@[simp] theorem State.enterWait_mem (x : RegIx) : (s.enterWait x).mem = s.mem := rfl
@[simp] theorem State.enterWait_disp (x : RegIx) : (s.enterWait x).disp = s.disp := rfl
@[simp] theorem State.enterWait_redraw (x : RegIx) : (s.enterWait x).redraw = s.redraw := rfl
@[simp] theorem State.enterWait_wait (x : RegIx) : (s.enterWait x).wait = true := rfl
@[simp] theorem State.enterWait_waitReg (x : RegIx) : (s.enterWait x).waitReg = x := rfl
@[simp] theorem State.enterWait_keys (x : RegIx) : (s.enterWait x).keys = s.keys := rfl
@[simp] theorem State.enterWait_diag (x : RegIx) : (s.enterWait x).diag = s.diag := rfl
@[simp] theorem State.enterWait_rand (x : RegIx) : (s.enterWait x).rand = s.rand := rfl
@[simp] theorem State.enterWait_cfg (x : RegIx) : (s.enterWait x).cfg = s.cfg := rfl
@[simp] theorem State.enterWait_loadWindow (x : RegIx) : (s.enterWait x).loadWindow = s.loadWindow := rfl
@[simp] theorem State.enterWait_schedule (x : RegIx) : (s.enterWait x).schedule = s.schedule := rfl
@[simp] theorem State.enterWait_randCount (x : RegIx) : (s.enterWait x).randCount = s.randCount := rfl

/-! ### leaveWait -/

@[simp] theorem State.leaveWait_v (k : Nat) : (s.leaveWait k).v = s.v.set s.waitReg.toNat (BitVec.ofNat 8 k) s.waitReg.isLt := rfl
@[simp] theorem State.leaveWait_pc (k : Nat) : (s.leaveWait k).pc = s.pc := rfl
@[simp] theorem State.leaveWait_i (k : Nat) : (s.leaveWait k).i = s.i := rfl
@[simp] theorem State.leaveWait_stack (k : Nat) : (s.leaveWait k).stack = s.stack := rfl
@[simp] theorem State.leaveWait_sp (k : Nat) : (s.leaveWait k).sp = s.sp := rfl
@[simp] theorem State.leaveWait_dt (k : Nat) : (s.leaveWait k).dt = s.dt := rfl
@[simp] theorem State.leaveWait_st (k : Nat) : (s.leaveWait k).st = s.st := rfl
@[simp] theorem State.leaveWait_mem (k : Nat) : (s.leaveWait k).mem = s.mem := rfl
@[simp] theorem State.leaveWait_disp (k : Nat) : (s.leaveWait k).disp = s.disp := rfl
@[simp] theorem State.leaveWait_redraw (k : Nat) : (s.leaveWait k).redraw = s.redraw := rfl
@[simp] theorem State.leaveWait_wait (k : Nat) : (s.leaveWait k).wait = false := rfl
@[simp] theorem State.leaveWait_waitReg (k : Nat) : (s.leaveWait k).waitReg = s.waitReg := rfl
@[simp] theorem State.leaveWait_keys (k : Nat) : (s.leaveWait k).keys = s.keys := rfl
@[simp] theorem State.leaveWait_diag (k : Nat) : (s.leaveWait k).diag = s.diag := rfl
@[simp] theorem State.leaveWait_rand (k : Nat) : (s.leaveWait k).rand = s.rand := rfl
@[simp] theorem State.leaveWait_cfg (k : Nat) : (s.leaveWait k).cfg = s.cfg := rfl
@[simp] theorem State.leaveWait_loadWindow (k : Nat) : (s.leaveWait k).loadWindow = s.loadWindow := rfl
@[simp] theorem State.leaveWait_schedule (k : Nat) : (s.leaveWait k).schedule = s.schedule := rfl
@[simp] theorem State.leaveWait_randCount (k : Nat) : (s.leaveWait k).randCount = s.randCount := rfl

/-! ### takeRand -/

@[simp] theorem State.takeRand_v : (s.takeRand).v = s.v := rfl
@[simp] theorem State.takeRand_pc : (s.takeRand).pc = s.pc := rfl
@[simp] theorem State.takeRand_i : (s.takeRand).i = s.i := rfl
@[simp] theorem State.takeRand_stack : (s.takeRand).stack = s.stack := rfl
@[simp] theorem State.takeRand_sp : (s.takeRand).sp = s.sp := rfl
@[simp] theorem State.takeRand_dt : (s.takeRand).dt = s.dt := rfl
@[simp] theorem State.takeRand_st : (s.takeRand).st = s.st := rfl
@[simp] theorem State.takeRand_mem : (s.takeRand).mem = s.mem := rfl
@[simp] theorem State.takeRand_disp : (s.takeRand).disp = s.disp := rfl
@[simp] theorem State.takeRand_redraw : (s.takeRand).redraw = s.redraw := rfl
@[simp] theorem State.takeRand_wait : (s.takeRand).wait = s.wait := rfl
@[simp] theorem State.takeRand_waitReg : (s.takeRand).waitReg = s.waitReg := rfl
@[simp] theorem State.takeRand_keys : (s.takeRand).keys = s.keys := rfl
@[simp] theorem State.takeRand_diag : (s.takeRand).diag = s.diag := rfl
@[simp] theorem State.takeRand_rand : (s.takeRand).rand = s.rand := rfl
@[simp] theorem State.takeRand_cfg : (s.takeRand).cfg = s.cfg := rfl
@[simp] theorem State.takeRand_loadWindow : (s.takeRand).loadWindow = s.loadWindow := rfl
@[simp] theorem State.takeRand_schedule : (s.takeRand).schedule = s.schedule := rfl
@[simp] theorem State.takeRand_randCount : (s.takeRand).randCount = s.randCount + 1 := rfl

/-! ### presentRand -/

@[simp] theorem State.presentRand_v (r : Option Byte) : (s.presentRand r).v = s.v := rfl
@[simp] theorem State.presentRand_pc (r : Option Byte) : (s.presentRand r).pc = s.pc := rfl
@[simp] theorem State.presentRand_i (r : Option Byte) : (s.presentRand r).i = s.i := rfl
@[simp] theorem State.presentRand_stack (r : Option Byte) : (s.presentRand r).stack = s.stack := rfl
@[simp] theorem State.presentRand_sp (r : Option Byte) : (s.presentRand r).sp = s.sp := rfl
@[simp] theorem State.presentRand_dt (r : Option Byte) : (s.presentRand r).dt = s.dt := rfl
@[simp] theorem State.presentRand_st (r : Option Byte) : (s.presentRand r).st = s.st := rfl
@[simp] theorem State.presentRand_mem (r : Option Byte) : (s.presentRand r).mem = s.mem := rfl
@[simp] theorem State.presentRand_disp (r : Option Byte) : (s.presentRand r).disp = s.disp := rfl
@[simp] theorem State.presentRand_redraw (r : Option Byte) : (s.presentRand r).redraw = s.redraw := rfl
@[simp] theorem State.presentRand_wait (r : Option Byte) : (s.presentRand r).wait = s.wait := rfl
@[simp] theorem State.presentRand_waitReg (r : Option Byte) : (s.presentRand r).waitReg = s.waitReg := rfl
@[simp] theorem State.presentRand_keys (r : Option Byte) : (s.presentRand r).keys = s.keys := rfl
@[simp] theorem State.presentRand_diag (r : Option Byte) : (s.presentRand r).diag = s.diag := rfl
@[simp] theorem State.presentRand_rand (r : Option Byte) : (s.presentRand r).rand = r := rfl
@[simp] theorem State.presentRand_cfg (r : Option Byte) : (s.presentRand r).cfg = s.cfg := rfl
@[simp] theorem State.presentRand_loadWindow (r : Option Byte) : (s.presentRand r).loadWindow = s.loadWindow := rfl
@[simp] theorem State.presentRand_schedule (r : Option Byte) : (s.presentRand r).schedule = s.schedule := rfl
@[simp] theorem State.presentRand_randCount (r : Option Byte) : (s.presentRand r).randCount = s.randCount := rfl

/-! ### setVThenFlag -/

@[simp] theorem State.setVThenFlag_pc (x : RegIx) (b : Byte) (f : Bool) : (s.setVThenFlag x b f).pc = s.pc := rfl
@[simp] theorem State.setVThenFlag_i (x : RegIx) (b : Byte) (f : Bool) : (s.setVThenFlag x b f).i = s.i := rfl
@[simp] theorem State.setVThenFlag_stack (x : RegIx) (b : Byte) (f : Bool) : (s.setVThenFlag x b f).stack = s.stack := rfl
@[simp] theorem State.setVThenFlag_sp (x : RegIx) (b : Byte) (f : Bool) : (s.setVThenFlag x b f).sp = s.sp := rfl
@[simp] theorem State.setVThenFlag_dt (x : RegIx) (b : Byte) (f : Bool) : (s.setVThenFlag x b f).dt = s.dt := rfl
@[simp] theorem State.setVThenFlag_st (x : RegIx) (b : Byte) (f : Bool) : (s.setVThenFlag x b f).st = s.st := rfl
@[simp] theorem State.setVThenFlag_mem (x : RegIx) (b : Byte) (f : Bool) : (s.setVThenFlag x b f).mem = s.mem := rfl
@[simp] theorem State.setVThenFlag_disp (x : RegIx) (b : Byte) (f : Bool) : (s.setVThenFlag x b f).disp = s.disp := rfl
@[simp] theorem State.setVThenFlag_redraw (x : RegIx) (b : Byte) (f : Bool) : (s.setVThenFlag x b f).redraw = s.redraw := rfl
@[simp] theorem State.setVThenFlag_wait (x : RegIx) (b : Byte) (f : Bool) : (s.setVThenFlag x b f).wait = s.wait := rfl
@[simp] theorem State.setVThenFlag_waitReg (x : RegIx) (b : Byte) (f : Bool) : (s.setVThenFlag x b f).waitReg = s.waitReg := rfl
@[simp] theorem State.setVThenFlag_keys (x : RegIx) (b : Byte) (f : Bool) : (s.setVThenFlag x b f).keys = s.keys := rfl
@[simp] theorem State.setVThenFlag_diag (x : RegIx) (b : Byte) (f : Bool) : (s.setVThenFlag x b f).diag = s.diag := rfl
@[simp] theorem State.setVThenFlag_rand (x : RegIx) (b : Byte) (f : Bool) : (s.setVThenFlag x b f).rand = s.rand := rfl
@[simp] theorem State.setVThenFlag_cfg (x : RegIx) (b : Byte) (f : Bool) : (s.setVThenFlag x b f).cfg = s.cfg := rfl
@[simp] theorem State.setVThenFlag_loadWindow (x : RegIx) (b : Byte) (f : Bool) : (s.setVThenFlag x b f).loadWindow = s.loadWindow := rfl
@[simp] theorem State.setVThenFlag_schedule (x : RegIx) (b : Byte) (f : Bool) : (s.setVThenFlag x b f).schedule = s.schedule := rfl
@[simp] theorem State.setVThenFlag_randCount (x : RegIx) (b : Byte) (f : Bool) : (s.setVThenFlag x b f).randCount = s.randCount := rfl

/-! ### skipIf -/

@[simp] theorem State.skipIf_v (c : Bool) : (s.skipIf c).v = s.v := by
  unfold State.skipIf; split <;> rfl
@[simp] theorem State.skipIf_pc (c : Bool) : (s.skipIf c).pc = if c then s.pc + 2#16 else s.pc := by
  unfold State.skipIf; split <;> rfl
@[simp] theorem State.skipIf_i (c : Bool) : (s.skipIf c).i = s.i := by
  unfold State.skipIf; split <;> rfl
@[simp] theorem State.skipIf_stack (c : Bool) : (s.skipIf c).stack = s.stack := by
  unfold State.skipIf; split <;> rfl
@[simp] theorem State.skipIf_sp (c : Bool) : (s.skipIf c).sp = s.sp := by
  unfold State.skipIf; split <;> rfl
@[simp] theorem State.skipIf_dt (c : Bool) : (s.skipIf c).dt = s.dt := by
  unfold State.skipIf; split <;> rfl
@[simp] theorem State.skipIf_st (c : Bool) : (s.skipIf c).st = s.st := by
  unfold State.skipIf; split <;> rfl
@[simp] theorem State.skipIf_mem (c : Bool) : (s.skipIf c).mem = s.mem := by
  unfold State.skipIf; split <;> rfl
@[simp] theorem State.skipIf_disp (c : Bool) : (s.skipIf c).disp = s.disp := by
  unfold State.skipIf; split <;> rfl
@[simp] theorem State.skipIf_redraw (c : Bool) : (s.skipIf c).redraw = s.redraw := by
  unfold State.skipIf; split <;> rfl
@[simp] theorem State.skipIf_wait (c : Bool) : (s.skipIf c).wait = s.wait := by
  unfold State.skipIf; split <;> rfl
@[simp] theorem State.skipIf_waitReg (c : Bool) : (s.skipIf c).waitReg = s.waitReg := by
  unfold State.skipIf; split <;> rfl
@[simp] theorem State.skipIf_keys (c : Bool) : (s.skipIf c).keys = s.keys := by
  unfold State.skipIf; split <;> rfl
@[simp] theorem State.skipIf_diag (c : Bool) : (s.skipIf c).diag = s.diag := by
  unfold State.skipIf; split <;> rfl
@[simp] theorem State.skipIf_rand (c : Bool) : (s.skipIf c).rand = s.rand := by
  unfold State.skipIf; split <;> rfl
@[simp] theorem State.skipIf_cfg (c : Bool) : (s.skipIf c).cfg = s.cfg := by
  unfold State.skipIf; split <;> rfl
@[simp] theorem State.skipIf_loadWindow (c : Bool) : (s.skipIf c).loadWindow = s.loadWindow := by
  unfold State.skipIf; split <;> rfl
@[simp] theorem State.skipIf_schedule (c : Bool) : (s.skipIf c).schedule = s.schedule := by
  unfold State.skipIf; split <;> rfl
@[simp] theorem State.skipIf_randCount (c : Bool) : (s.skipIf c).randCount = s.randCount := by
  unfold State.skipIf; split <;> rfl

/-! ### setVThenReset -/

@[simp] theorem State.setVThenReset_pc (x : RegIx) (b : Byte) : (s.setVThenReset x b).pc = s.pc := by
  unfold State.setVThenReset; split <;> rfl
@[simp] theorem State.setVThenReset_i (x : RegIx) (b : Byte) : (s.setVThenReset x b).i = s.i := by
  unfold State.setVThenReset; split <;> rfl
@[simp] theorem State.setVThenReset_stack (x : RegIx) (b : Byte) : (s.setVThenReset x b).stack = s.stack := by
  unfold State.setVThenReset; split <;> rfl
@[simp] theorem State.setVThenReset_sp (x : RegIx) (b : Byte) : (s.setVThenReset x b).sp = s.sp := by
  unfold State.setVThenReset; split <;> rfl
@[simp] theorem State.setVThenReset_dt (x : RegIx) (b : Byte) : (s.setVThenReset x b).dt = s.dt := by
  unfold State.setVThenReset; split <;> rfl
@[simp] theorem State.setVThenReset_st (x : RegIx) (b : Byte) : (s.setVThenReset x b).st = s.st := by
  unfold State.setVThenReset; split <;> rfl
@[simp] theorem State.setVThenReset_mem (x : RegIx) (b : Byte) : (s.setVThenReset x b).mem = s.mem := by
  unfold State.setVThenReset; split <;> rfl
@[simp] theorem State.setVThenReset_disp (x : RegIx) (b : Byte) : (s.setVThenReset x b).disp = s.disp := by
  unfold State.setVThenReset; split <;> rfl
@[simp] theorem State.setVThenReset_redraw (x : RegIx) (b : Byte) : (s.setVThenReset x b).redraw = s.redraw := by
  unfold State.setVThenReset; split <;> rfl
@[simp] theorem State.setVThenReset_wait (x : RegIx) (b : Byte) : (s.setVThenReset x b).wait = s.wait := by
  unfold State.setVThenReset; split <;> rfl
@[simp] theorem State.setVThenReset_waitReg (x : RegIx) (b : Byte) : (s.setVThenReset x b).waitReg = s.waitReg := by
  unfold State.setVThenReset; split <;> rfl
@[simp] theorem State.setVThenReset_keys (x : RegIx) (b : Byte) : (s.setVThenReset x b).keys = s.keys := by
  unfold State.setVThenReset; split <;> rfl
@[simp] theorem State.setVThenReset_diag (x : RegIx) (b : Byte) : (s.setVThenReset x b).diag = s.diag := by
  unfold State.setVThenReset; split <;> rfl
@[simp] theorem State.setVThenReset_rand (x : RegIx) (b : Byte) : (s.setVThenReset x b).rand = s.rand := by
  unfold State.setVThenReset; split <;> rfl
@[simp] theorem State.setVThenReset_cfg (x : RegIx) (b : Byte) : (s.setVThenReset x b).cfg = s.cfg := by
  unfold State.setVThenReset; split <;> rfl
@[simp] theorem State.setVThenReset_loadWindow (x : RegIx) (b : Byte) : (s.setVThenReset x b).loadWindow = s.loadWindow := by
  unfold State.setVThenReset; split <;> rfl
@[simp] theorem State.setVThenReset_schedule (x : RegIx) (b : Byte) : (s.setVThenReset x b).schedule = s.schedule := by
  unfold State.setVThenReset; split <;> rfl
@[simp] theorem State.setVThenReset_randCount (x : RegIx) (b : Byte) : (s.setVThenReset x b).randCount = s.randCount := by
  unfold State.setVThenReset; split <;> rfl

/-! ### bumpI -/

@[simp] theorem State.bumpI_v (x : RegIx) : (s.bumpI x).v = s.v := by
  unfold State.bumpI; split <;> rfl
@[simp] theorem State.bumpI_pc (x : RegIx) : (s.bumpI x).pc = s.pc := by
  unfold State.bumpI; split <;> rfl
@[simp] theorem State.bumpI_i (x : RegIx) : (s.bumpI x).i = if s.cfg.memIncI then s.indexed (x.toNat + 1) else s.i := by
  unfold State.bumpI; split <;> rfl
@[simp] theorem State.bumpI_stack (x : RegIx) : (s.bumpI x).stack = s.stack := by
  unfold State.bumpI; split <;> rfl
@[simp] theorem State.bumpI_sp (x : RegIx) : (s.bumpI x).sp = s.sp := by
  unfold State.bumpI; split <;> rfl
@[simp] theorem State.bumpI_dt (x : RegIx) : (s.bumpI x).dt = s.dt := by
  unfold State.bumpI; split <;> rfl
@[simp] theorem State.bumpI_st (x : RegIx) : (s.bumpI x).st = s.st := by
  unfold State.bumpI; split <;> rfl
@[simp] theorem State.bumpI_mem (x : RegIx) : (s.bumpI x).mem = s.mem := by
  unfold State.bumpI; split <;> rfl
@[simp] theorem State.bumpI_disp (x : RegIx) : (s.bumpI x).disp = s.disp := by
  unfold State.bumpI; split <;> rfl
@[simp] theorem State.bumpI_redraw (x : RegIx) : (s.bumpI x).redraw = s.redraw := by
  unfold State.bumpI; split <;> rfl
@[simp] theorem State.bumpI_wait (x : RegIx) : (s.bumpI x).wait = s.wait := by
  unfold State.bumpI; split <;> rfl
@[simp] theorem State.bumpI_waitReg (x : RegIx) : (s.bumpI x).waitReg = s.waitReg := by
  unfold State.bumpI; split <;> rfl
@[simp] theorem State.bumpI_keys (x : RegIx) : (s.bumpI x).keys = s.keys := by
  unfold State.bumpI; split <;> rfl
@[simp] theorem State.bumpI_diag (x : RegIx) : (s.bumpI x).diag = s.diag := by
  unfold State.bumpI; split <;> rfl
@[simp] theorem State.bumpI_rand (x : RegIx) : (s.bumpI x).rand = s.rand := by
  unfold State.bumpI; split <;> rfl
@[simp] theorem State.bumpI_cfg (x : RegIx) : (s.bumpI x).cfg = s.cfg := by
  unfold State.bumpI; split <;> rfl
@[simp] theorem State.bumpI_loadWindow (x : RegIx) : (s.bumpI x).loadWindow = s.loadWindow := by
  unfold State.bumpI; split <;> rfl
@[simp] theorem State.bumpI_schedule (x : RegIx) : (s.bumpI x).schedule = s.schedule := by
  unfold State.bumpI; split <;> rfl
@[simp] theorem State.bumpI_randCount (x : RegIx) : (s.bumpI x).randCount = s.randCount := by
  unfold State.bumpI; split <;> rfl

/-! ### applyKeys -/

@[simp] theorem State.applyKeys_v (l : Word) : (s.applyKeys l).v = s.v := rfl
@[simp] theorem State.applyKeys_pc (l : Word) : (s.applyKeys l).pc = s.pc := rfl
@[simp] theorem State.applyKeys_i (l : Word) : (s.applyKeys l).i = s.i := rfl
@[simp] theorem State.applyKeys_stack (l : Word) : (s.applyKeys l).stack = s.stack := rfl
@[simp] theorem State.applyKeys_sp (l : Word) : (s.applyKeys l).sp = s.sp := rfl
@[simp] theorem State.applyKeys_dt (l : Word) : (s.applyKeys l).dt = s.dt := rfl
@[simp] theorem State.applyKeys_st (l : Word) : (s.applyKeys l).st = s.st := rfl
@[simp] theorem State.applyKeys_mem (l : Word) : (s.applyKeys l).mem = s.mem := rfl
@[simp] theorem State.applyKeys_disp (l : Word) : (s.applyKeys l).disp = s.disp := rfl
@[simp] theorem State.applyKeys_redraw (l : Word) : (s.applyKeys l).redraw = s.redraw := rfl
@[simp] theorem State.applyKeys_wait (l : Word) : (s.applyKeys l).wait = s.wait := rfl
@[simp] theorem State.applyKeys_waitReg (l : Word) : (s.applyKeys l).waitReg = s.waitReg := rfl
@[simp] theorem State.applyKeys_keys (l : Word) : (s.applyKeys l).keys = l := rfl
@[simp] theorem State.applyKeys_diag (l : Word) : (s.applyKeys l).diag = s.diag := rfl
@[simp] theorem State.applyKeys_rand (l : Word) : (s.applyKeys l).rand = s.rand := rfl
@[simp] theorem State.applyKeys_cfg (l : Word) : (s.applyKeys l).cfg = s.cfg := rfl
@[simp] theorem State.applyKeys_loadWindow (l : Word) : (s.applyKeys l).loadWindow = s.loadWindow := rfl
@[simp] theorem State.applyKeys_schedule (l : Word) : (s.applyKeys l).schedule = s.schedule := rfl
@[simp] theorem State.applyKeys_randCount (l : Word) : (s.applyKeys l).randCount = s.randCount := rfl

/-! ### applyTick -/

@[simp] theorem State.applyTick_v : (s.applyTick).v = s.v := rfl
@[simp] theorem State.applyTick_pc : (s.applyTick).pc = s.pc := rfl
@[simp] theorem State.applyTick_i : (s.applyTick).i = s.i := rfl
@[simp] theorem State.applyTick_stack : (s.applyTick).stack = s.stack := rfl
@[simp] theorem State.applyTick_sp : (s.applyTick).sp = s.sp := rfl
@[simp] theorem State.applyTick_dt : (s.applyTick).dt = ticked s.dt := rfl
@[simp] theorem State.applyTick_st : (s.applyTick).st = ticked s.st := rfl
@[simp] theorem State.applyTick_mem : (s.applyTick).mem = s.mem := rfl
@[simp] theorem State.applyTick_disp : (s.applyTick).disp = s.disp := rfl
@[simp] theorem State.applyTick_redraw : (s.applyTick).redraw = s.redraw := rfl
@[simp] theorem State.applyTick_wait : (s.applyTick).wait = s.wait := rfl
@[simp] theorem State.applyTick_waitReg : (s.applyTick).waitReg = s.waitReg := rfl
@[simp] theorem State.applyTick_keys : (s.applyTick).keys = s.keys := rfl
@[simp] theorem State.applyTick_diag : (s.applyTick).diag = s.diag := rfl
@[simp] theorem State.applyTick_rand : (s.applyTick).rand = s.rand := rfl
@[simp] theorem State.applyTick_cfg : (s.applyTick).cfg = s.cfg := rfl
@[simp] theorem State.applyTick_loadWindow : (s.applyTick).loadWindow = s.loadWindow := rfl
@[simp] theorem State.applyTick_schedule : (s.applyTick).schedule = s.schedule := rfl
@[simp] theorem State.applyTick_randCount : (s.applyTick).randCount = s.randCount := rfl

/-! ### applyAck -/

@[simp] theorem State.applyAck_v : (s.applyAck).v = s.v := rfl
@[simp] theorem State.applyAck_pc : (s.applyAck).pc = s.pc := rfl
@[simp] theorem State.applyAck_i : (s.applyAck).i = s.i := rfl
@[simp] theorem State.applyAck_stack : (s.applyAck).stack = s.stack := rfl
@[simp] theorem State.applyAck_sp : (s.applyAck).sp = s.sp := rfl
@[simp] theorem State.applyAck_dt : (s.applyAck).dt = s.dt := rfl
@[simp] theorem State.applyAck_st : (s.applyAck).st = s.st := rfl
@[simp] theorem State.applyAck_mem : (s.applyAck).mem = s.mem := rfl
@[simp] theorem State.applyAck_disp : (s.applyAck).disp = s.disp := rfl
@[simp] theorem State.applyAck_redraw : (s.applyAck).redraw = false := rfl
@[simp] theorem State.applyAck_wait : (s.applyAck).wait = s.wait := rfl
@[simp] theorem State.applyAck_waitReg : (s.applyAck).waitReg = s.waitReg := rfl
@[simp] theorem State.applyAck_keys : (s.applyAck).keys = s.keys := rfl
@[simp] theorem State.applyAck_diag : (s.applyAck).diag = s.diag := rfl
@[simp] theorem State.applyAck_rand : (s.applyAck).rand = s.rand := rfl
@[simp] theorem State.applyAck_cfg : (s.applyAck).cfg = s.cfg := rfl
@[simp] theorem State.applyAck_loadWindow : (s.applyAck).loadWindow = s.loadWindow := rfl
@[simp] theorem State.applyAck_schedule : (s.applyAck).schedule = s.schedule := rfl
@[simp] theorem State.applyAck_randCount : (s.applyAck).randCount = s.randCount := rfl

/-! ### applyLoad -/

@[simp] theorem State.applyLoad_v (a : Word) (b : Byte) : (s.applyLoad a b).v = s.v := by
  unfold State.applyLoad; split <;> rfl
@[simp] theorem State.applyLoad_pc (a : Word) (b : Byte) : (s.applyLoad a b).pc = s.pc := by
  unfold State.applyLoad; split <;> rfl
@[simp] theorem State.applyLoad_i (a : Word) (b : Byte) : (s.applyLoad a b).i = s.i := by
  unfold State.applyLoad; split <;> rfl
@[simp] theorem State.applyLoad_stack (a : Word) (b : Byte) : (s.applyLoad a b).stack = s.stack := by
  unfold State.applyLoad; split <;> rfl
@[simp] theorem State.applyLoad_sp (a : Word) (b : Byte) : (s.applyLoad a b).sp = s.sp := by
  unfold State.applyLoad; split <;> rfl
@[simp] theorem State.applyLoad_dt (a : Word) (b : Byte) : (s.applyLoad a b).dt = s.dt := by
  unfold State.applyLoad; split <;> rfl
@[simp] theorem State.applyLoad_st (a : Word) (b : Byte) : (s.applyLoad a b).st = s.st := by
  unfold State.applyLoad; split <;> rfl
@[simp] theorem State.applyLoad_mem (a : Word) (b : Byte) : (s.applyLoad a b).mem = if s.loadWindow && loadable a then Memory.write s.cfg.font s.mem (ea a).toNat b else s.mem := by
  unfold State.applyLoad; split <;> rfl
@[simp] theorem State.applyLoad_disp (a : Word) (b : Byte) : (s.applyLoad a b).disp = s.disp := by
  unfold State.applyLoad; split <;> rfl
@[simp] theorem State.applyLoad_redraw (a : Word) (b : Byte) : (s.applyLoad a b).redraw = s.redraw := by
  unfold State.applyLoad; split <;> rfl
@[simp] theorem State.applyLoad_wait (a : Word) (b : Byte) : (s.applyLoad a b).wait = s.wait := by
  unfold State.applyLoad; split <;> rfl
@[simp] theorem State.applyLoad_waitReg (a : Word) (b : Byte) : (s.applyLoad a b).waitReg = s.waitReg := by
  unfold State.applyLoad; split <;> rfl
@[simp] theorem State.applyLoad_keys (a : Word) (b : Byte) : (s.applyLoad a b).keys = s.keys := by
  unfold State.applyLoad; split <;> rfl
@[simp] theorem State.applyLoad_diag (a : Word) (b : Byte) : (s.applyLoad a b).diag = s.diag := by
  unfold State.applyLoad; split <;> rfl
@[simp] theorem State.applyLoad_rand (a : Word) (b : Byte) : (s.applyLoad a b).rand = s.rand := by
  unfold State.applyLoad; split <;> rfl
@[simp] theorem State.applyLoad_cfg (a : Word) (b : Byte) : (s.applyLoad a b).cfg = s.cfg := by
  unfold State.applyLoad; split <;> rfl
@[simp] theorem State.applyLoad_loadWindow (a : Word) (b : Byte) : (s.applyLoad a b).loadWindow = s.loadWindow := by
  unfold State.applyLoad; split <;> rfl
@[simp] theorem State.applyLoad_schedule (a : Word) (b : Byte) : (s.applyLoad a b).schedule = s.schedule := by
  unfold State.applyLoad; split <;> rfl
@[simp] theorem State.applyLoad_randCount (a : Word) (b : Byte) : (s.applyLoad a b).randCount = s.randCount := by
  unfold State.applyLoad; split <;> rfl

end Machine
end Sys2Proof
end

