-- ==== Sys2Proof/Laws/Registers.lean ====
section
/-! SUPPORT. Reading a register or a byte after each update, one lemma per reader per update. -/

namespace Sys2Proof
namespace Machine

variable (s : State)

/-- A register read after a register write. -/
theorem State.getV_setV (x r : RegIx) (b : Byte) : (s.setV x b).getV r = if r = x then b else s.getV r := by
  unfold State.getV State.setV
  by_cases h : r = x
  · subst h; simp
  · have : x.toNat ≠ r.toNat := fun e => h (BitVec.eq_of_toNat_eq e.symm)
    simp [h, Vector.getElem_set_ne _ _ this]

theorem State.getV_setVF (r : RegIx) (b : Byte) : (s.setVF b).getV r = if r = vf then b else s.getV r :=
  s.getV_setV vf r b

/-- The destination, then the flag: where VF is the destination the flag wins (10_state.md R13). -/
theorem State.getV_setVThenFlag (x r : RegIx) (b : Byte) (f : Bool) :
    (s.setVThenFlag x b f).getV r = if r = vf then flagByte f else if r = x then b else s.getV r := by
  rw [State.setVThenFlag, State.getV_setVF, State.getV_setV]

theorem State.getV_setVThenReset (x r : RegIx) (b : Byte) :
    (s.setVThenReset x b).getV r =
      if s.cfg.vfReset = true ∧ r = vf then 0x00#8 else if r = x then b else s.getV r := by
  unfold State.setVThenReset
  split_ifs <;> simp_all [State.getV_setVF, State.getV_setV]

/-- The gate's write of the key index (40_cycle.md R64). -/
theorem State.getV_leaveWait (k : Nat) (r : RegIx) :
    (s.leaveWait k).getV r = if r = s.waitReg then BitVec.ofNat 8 k else s.getV r :=
  s.getV_setV s.waitReg r _

/-! ### Registers are left alone -/

@[simp] theorem State.getV_setPc (w : Word) (r : RegIx) : (s.setPc w).getV r = s.getV r := rfl
@[simp] theorem State.getV_setI (w : Word) (r : RegIx) : (s.setI w).getV r = s.getV r := rfl
@[simp] theorem State.getV_setDt (b : Byte) (r : RegIx) : (s.setDt b).getV r = s.getV r := rfl
@[simp] theorem State.getV_setSt (b : Byte) (r : RegIx) : (s.setSt b).getV r = s.getV r := rfl
@[simp] theorem State.getV_writeByte (a : Word) (b : Byte) (r : RegIx) : (s.writeByte a b).getV r = s.getV r := rfl
@[simp] theorem State.getV_advance (r : RegIx) : (s.advance).getV r = s.getV r := rfl
@[simp] theorem State.getV_report (c : DiagCode) (a op : Word) (r : RegIx) : (s.report c a op).getV r = s.getV r := rfl
@[simp] theorem State.getV_setDisp (d : Display) (r : RegIx) : (s.setDisp d).getV r = s.getV r := rfl
@[simp] theorem State.getV_setRedraw (b : Bool) (r : RegIx) : (s.setRedraw b).getV r = s.getV r := rfl
@[simp] theorem State.getV_enterWait (x : RegIx) (r : RegIx) : (s.enterWait x).getV r = s.getV r := rfl
@[simp] theorem State.getV_takeRand (r : RegIx) : (s.takeRand).getV r = s.getV r := rfl
@[simp] theorem State.getV_presentRand (o : Option Byte) (r : RegIx) : (s.presentRand o).getV r = s.getV r := rfl
@[simp] theorem State.getV_skipIf (c : Bool) (r : RegIx) : (s.skipIf c).getV r = s.getV r := by
  unfold State.skipIf; split <;> rfl
@[simp] theorem State.getV_bumpI (x : RegIx) (r : RegIx) : (s.bumpI x).getV r = s.getV r := by
  unfold State.bumpI; split <;> rfl
@[simp] theorem State.getV_applyKeys (l : Word) (r : RegIx) : (s.applyKeys l).getV r = s.getV r := rfl
@[simp] theorem State.getV_applyTick (r : RegIx) : (s.applyTick).getV r = s.getV r := rfl
@[simp] theorem State.getV_applyAck (r : RegIx) : (s.applyAck).getV r = s.getV r := rfl

/-! ### Memory is left alone -/

@[simp] theorem State.readByte_setV (x : RegIx) (b : Byte) (c : Word) : (s.setV x b).readByte c = s.readByte c := rfl
@[simp] theorem State.readByte_setVF (b : Byte) (c : Word) : (s.setVF b).readByte c = s.readByte c := rfl
@[simp] theorem State.readByte_setVThenFlag (x : RegIx) (b : Byte) (f : Bool) (c : Word) : (s.setVThenFlag x b f).readByte c = s.readByte c := rfl
@[simp] theorem State.readByte_setVThenReset (x : RegIx) (b : Byte) (c : Word) : (s.setVThenReset x b).readByte c = s.readByte c := by
  unfold State.setVThenReset; split <;> rfl
@[simp] theorem State.readByte_leaveWait (k : Nat) (c : Word) : (s.leaveWait k).readByte c = s.readByte c := rfl
@[simp] theorem State.readByte_setPc (w : Word) (c : Word) : (s.setPc w).readByte c = s.readByte c := rfl
@[simp] theorem State.readByte_setI (w : Word) (c : Word) : (s.setI w).readByte c = s.readByte c := rfl
@[simp] theorem State.readByte_setDt (b : Byte) (c : Word) : (s.setDt b).readByte c = s.readByte c := rfl
@[simp] theorem State.readByte_setSt (b : Byte) (c : Word) : (s.setSt b).readByte c = s.readByte c := rfl
@[simp] theorem State.readByte_advance (c : Word) : (s.advance).readByte c = s.readByte c := rfl
@[simp] theorem State.readByte_report (d : DiagCode) (a op : Word) (c : Word) : (s.report d a op).readByte c = s.readByte c := rfl
@[simp] theorem State.readByte_setDisp (d : Display) (c : Word) : (s.setDisp d).readByte c = s.readByte c := rfl
@[simp] theorem State.readByte_setRedraw (b : Bool) (c : Word) : (s.setRedraw b).readByte c = s.readByte c := rfl
@[simp] theorem State.readByte_enterWait (x : RegIx) (c : Word) : (s.enterWait x).readByte c = s.readByte c := rfl
@[simp] theorem State.readByte_takeRand (c : Word) : (s.takeRand).readByte c = s.readByte c := rfl
@[simp] theorem State.readByte_presentRand (o : Option Byte) (c : Word) : (s.presentRand o).readByte c = s.readByte c := rfl
@[simp] theorem State.readByte_skipIf (p : Bool) (c : Word) : (s.skipIf p).readByte c = s.readByte c := by
  unfold State.skipIf; split <;> rfl
@[simp] theorem State.readByte_bumpI (x : RegIx) (c : Word) : (s.bumpI x).readByte c = s.readByte c := by
  unfold State.bumpI; split <;> rfl
@[simp] theorem State.readByte_applyKeys (l : Word) (c : Word) : (s.applyKeys l).readByte c = s.readByte c := rfl
@[simp] theorem State.readByte_applyTick (c : Word) : (s.applyTick).readByte c = s.readByte c := rfl
@[simp] theorem State.readByte_applyAck (c : Word) : (s.applyAck).readByte c = s.readByte c := rfl

end Machine
end Sys2Proof
end

