-- ==== Sys2Proof/Laws/Frame.lean ====
section
/-! SUPPORT. How `Unchanged` composes, and the elements each named update writes: a frame of an instruction is assembled from
these. -/

namespace Sys2Proof
namespace Machine

theorem Element.same_refl (s : State) (e : Element) : e.same s s := by
  cases e <;> simp [Element.same]

theorem Element.same_trans {s t u : State} {e : Element} (h1 : e.same s t) (h2 : e.same t u) : e.same s u := by
  cases e <;> simp_all [Element.same]

theorem Unchanged.refl (ws : List Element) (s : State) : Unchanged ws s s := fun e _ => e.same_refl s

theorem Unchanged.trans {ws : List Element} {s t u : State} (h1 : Unchanged ws s t) (h2 : Unchanged ws t u) :
    Unchanged ws s u := fun e he => Element.same_trans (h1 e he) (h2 e he)

theorem Unchanged.mono {ws vs : List Element} {s t : State} (h : Unchanged ws s t) (hsub : ∀ e ∈ ws, e ∈ vs) :
    Unchanged vs s t := fun e he => h e fun hw => he (hsub e hw)

/-- An element outside both lists is outside the one an option chooses. -/
theorem Element.notMem_ite {e : Element} {p : Prop} [Decidable p] {ws vs : List Element} (hw : e ∉ ws) (hv : e ∉ vs) :
    e ∉ if p then ws else vs := by
  by_cases h : p
  · rwa [if_pos h]
  · rwa [if_neg h]

theorem Unchanged.setV (s : State) (x : RegIx) (b : Byte) : Unchanged [.v] s (s.setV x b) := by
  intro e he; cases e <;> simp_all [Element.same]

theorem Unchanged.setVF (s : State) (b : Byte) : Unchanged [.v] s (s.setVF b) := Unchanged.setV s vf b

theorem Unchanged.setVThenFlag (s : State) (x : RegIx) (b : Byte) (f : Bool) :
    Unchanged [.v] s (s.setVThenFlag x b f) := (Unchanged.setV s x b).trans (Unchanged.setVF _ _)

theorem Unchanged.setVThenReset (s : State) (x : RegIx) (b : Byte) : Unchanged [.v] s (s.setVThenReset x b) := by
  unfold State.setVThenReset
  split
  · exact (Unchanged.setV s x b).trans (Unchanged.setVF _ _)
  · exact Unchanged.setV s x b

theorem Unchanged.setPc (s : State) (w : Word) : Unchanged [.pc] s (s.setPc w) := by
  intro e he; cases e <;> simp_all [Element.same]

theorem Unchanged.skipIf (s : State) (c : Bool) : Unchanged [.pc] s (s.skipIf c) := by
  intro e he; cases e <;> simp_all [Element.same]

theorem Unchanged.setI (s : State) (w : Word) : Unchanged [.i] s (s.setI w) := by
  intro e he; cases e <;> simp_all [Element.same]

theorem Unchanged.bumpI (s : State) (x : RegIx) :
    Unchanged (if s.cfg.memIncI then [.i] else []) s (s.bumpI x) := by
  intro e he; cases e <;> simp_all [Element.same]

theorem Unchanged.setDt (s : State) (b : Byte) : Unchanged [.dt] s (s.setDt b) := by
  intro e he; cases e <;> simp_all [Element.same]

theorem Unchanged.setSt (s : State) (b : Byte) : Unchanged [.st] s (s.setSt b) := by
  intro e he; cases e <;> simp_all [Element.same]

theorem Unchanged.writeByte (s : State) (a : Word) (b : Byte) : Unchanged [.mem] s (s.writeByte a b) := by
  intro e he; cases e <;> simp_all [Element.same]

theorem Unchanged.report (s : State) (c : DiagCode) (a op : Word) : Unchanged [.diag] s (s.report c a op) := by
  intro e he; cases e <;> simp_all [Element.same]

theorem Unchanged.setDisp (s : State) (d : Display) : Unchanged [.disp] s (s.setDisp d) := by
  intro e he; cases e <;> simp_all [Element.same]

theorem Unchanged.setRedraw (s : State) (b : Bool) : Unchanged [.redraw] s (s.setRedraw b) := by
  intro e he; cases e <;> simp_all [Element.same]

theorem Unchanged.enterWait (s : State) (x : RegIx) : Unchanged [.wait, .waitReg] s (s.enterWait x) := by
  intro e he; cases e <;> simp_all [Element.same]

theorem Unchanged.takeRand (s : State) : Unchanged [.randCount] s s.takeRand := by
  intro e he; cases e <;> simp_all [Element.same]

theorem Unchanged.advance (s : State) : Unchanged [.pc, .loadWindow] s s.advance := by
  intro e he; cases e <;> simp_all [Element.same]

theorem Unchanged.applyTick (s : State) : Unchanged [.dt, .st] s s.applyTick := by
  intro e he; cases e <;> simp_all [Element.same]

end Machine
end Sys2Proof
end

