-- ==== Sys2Proof/Laws/Draw.lean ====
section
/-! SUPPORT. The rasterizer cell by cell (46_draw.md R113, R119): toggling, plotting, and what a row and a whole sprite
toggle. -/

namespace Sys2Proof
namespace Machine

/-- Cells are numbered without overlap inside the canvas (10_state.md R21). -/
theorem cellIndex_inj {x y u v : Nat} (hx : x < 64) (hu : u < 64) (h : y * 64 + x = v * 64 + u) : x = u ∧ y = v := by
  omega

/-- Toggling flips its own cell and no other. -/
theorem Display.cell_toggle (d : Display) {x y u v : Nat} (hx : x < 64) (hy : y < 32) (hu : u < 64) :
    (d.toggle u v).cell x y = (d.cell x y ^^ (decide (x = u) && decide (y = v))) := by
  have h64 : Config.dispW = 64 := rfl
  unfold Display.cell Display.toggle
  rw [BitVec.getLsbD_xor, BitVec.getLsbD_twoPow, h64]
  congr 1
  have hlt : y * 64 + x < 2048 := by omega
  rw [← Bool.decide_and, ← Bool.decide_and, decide_eq_decide]
  constructor
  · rintro ⟨-, h⟩; exact cellIndex_inj hx hu h.symm
  · rintro ⟨rfl, rfl⟩; exact ⟨hlt, rfl⟩

/-- Plotting toggles its cell when the sprite bit is 1 (R119). -/
theorem Raster.cell_plot (r : Raster) {x y u v : Nat} (b : Bool) (hx : x < 64) (hy : y < 32) (hu : u < 64) :
    (r.plot u v b).disp.cell x y = (r.disp.cell x y ^^ (b && decide (x = u) && decide (y = v))) := by
  unfold Raster.plot
  cases b
  · simp
  · simp [Display.cell_toggle _ hx hy hu]

/-- Plotting records a collision when the bit is 1 and the cell was on (R113). -/
theorem Raster.hit_plot (r : Raster) (u v : Nat) (b : Bool) :
    (r.plot u v b).hit = (r.hit || (b && r.disp.cell u v)) := by
  unfold Raster.plot; cases b <;> simp

/-- How far right of the start column a cell lies, around the edge. -/
def colOffset (x0 x : Nat) : Nat := (x + 64 - x0) % 64

theorem colOffset_lt (x0 x : Nat) : colOffset x0 x < 64 := Nat.mod_lt _ (by omega)

/-- A cell is column `j` of a row that starts at `x0` exactly when its offset is `j`. -/
theorem eq_col_iff {x0 x j : Nat} (hx0 : x0 < 64) (hx : x < 64) (hj : j < 64) :
    x = (x0 + j) % 64 ↔ colOffset x0 x = j := by
  unfold colOffset; omega

/-- Whether a cell of row `v` is toggled by the columns `c ≤ j < c + n` of a row that starts at `x0` (R114, R115). -/
def rowBit (wrap : Bool) (row : Byte) (x0 n c x : Nat) : Bool :=
  decide (c ≤ colOffset x0 x) && decide (colOffset x0 x < c + n) && (wrap || decide (x0 + colOffset x0 x < 64)) &&
    row.getLsbD (7 - colOffset x0 x)

theorem rowBit_zero (wrap : Bool) (row : Byte) (x0 c x : Nat) : rowBit wrap row x0 0 c x = false := by
  by_cases h : c ≤ colOffset x0 x <;> simp [rowBit, h]

/-- Past the right edge nothing is toggled without wrap. -/
theorem rowBit_clipped {wrap : Bool} {x0 c : Nat} (h : 64 ≤ x0 + c ∧ wrap = false) (row : Byte) (n x : Nat) :
    rowBit wrap row x0 n c x = false := by
  unfold rowBit
  by_cases hc : c ≤ colOffset x0 x
  · have : ¬ x0 + colOffset x0 x < 64 := by omega
    simp [this, h.2]
  · simp [hc]

/-- The first column apart from the rest. -/
theorem rowBit_succ {wrap : Bool} {x0 c x : Nat} (h : ¬ (64 ≤ x0 + c ∧ wrap = false)) (hx0 : x0 < 64) (hx : x < 64)
    (hc : c < 64) (row : Byte) (n : Nat) :
    rowBit wrap row x0 (n + 1) c x =
      ((row.getLsbD (7 - c) && decide (x = (x0 + c) % 64)) ^^ rowBit wrap row x0 n (c + 1) x) := by
  have hdec : decide (x = (x0 + c) % 64) = decide (colOffset x0 x = c) := decide_eq_decide.2 (eq_col_iff hx0 hx hc)
  rw [hdec]
  unfold rowBit
  generalize colOffset x0 x = d
  by_cases hd : d = c
  · subst hd
    have h1 : ¬ d + 1 ≤ d := by omega
    have h2 : d < d + (n + 1) := by omega
    have h3 : (wrap || decide (x0 + d < 64)) = true := by
      cases wrap
      · simp only [Bool.false_or, decide_eq_true_eq]; simp only [and_true] at h; omega
      · rfl
    simp [h2, h3]
  · have h1 : (decide (c ≤ d) && decide (d < c + (n + 1))) = (decide (c + 1 ≤ d) && decide (d < c + 1 + n)) := by
      rw [← Bool.decide_and, ← Bool.decide_and]; congr 1; apply propext; omega
    rw [h1, decide_eq_false hd, Bool.and_false, Bool.false_xor]

/-- The cells a row toggles. -/
theorem Raster.cell_drawCols (wrap : Bool) (row : Byte) {x0 : Nat} (v n c : Nat) (r : Raster) {x y : Nat}
    (hx0 : x0 < 64) (hx : x < 64) (hy : y < 32) (hn : c + n ≤ 8) :
    (Raster.drawCols wrap row x0 v n c r).disp.cell x y =
      (r.disp.cell x y ^^ (decide (y = v) && rowBit wrap row x0 n c x)) := by
  induction n generalizing c r with
  | zero => simp [Raster.drawCols, rowBit_zero]
  | succ n ih =>
    rw [Raster.drawCols]
    by_cases hstop : 64 ≤ x0 + c ∧ wrap = false
    · rw [if_pos hstop, rowBit_clipped hstop]; simp
    · rw [if_neg hstop, ih _ _ (by omega), Raster.cell_plot _ _ hx hy (Nat.mod_lt _ (by decide)),
        rowBit_succ hstop hx0 hx (by omega)]
      show _ = (_ ^^ (_ && ((_ && decide (x = (x0 + c) % Config.dispW)) ^^ _)))
      cases r.disp.cell x y <;> cases decide (y = v) <;> cases row.getLsbD (7 - c) <;>
        cases decide (x = (x0 + c) % Config.dispW) <;> simp

/-- A row collides iff it toggles a cell that was on before the row. -/
theorem Raster.hit_drawCols (wrap : Bool) (row : Byte) {x0 : Nat} {v : Nat} (n c : Nat) (r : Raster) (hx0 : x0 < 64)
    (hv : v < 32) (hn : c + n ≤ 8) :
    (Raster.drawCols wrap row x0 v n c r).hit = true ↔
      r.hit = true ∨ ∃ x < 64, rowBit wrap row x0 n c x = true ∧ r.disp.cell x v = true := by
  induction n generalizing c r with
  | zero => simp [Raster.drawCols, rowBit_zero]
  | succ n ih =>
    rw [Raster.drawCols]
    by_cases hstop : 64 ≤ x0 + c ∧ wrap = false
    · rw [if_pos hstop]; simp [rowBit_clipped hstop]
    · have hcol : (x0 + c) % 64 < 64 := Nat.mod_lt _ (by decide)
      rw [if_neg hstop, ih _ _ (by omega), Raster.hit_plot, Bool.or_eq_true, Bool.and_eq_true, or_assoc]
      refine or_congr_right ⟨?_, ?_⟩
      · rintro (⟨hb, hc⟩ | ⟨x, hx, hb, hc⟩)
        · refine ⟨(x0 + c) % 64, hcol, ?_, hc⟩
          have hd : colOffset x0 ((x0 + c) % 64) = c := (eq_col_iff hx0 hcol (by omega)).1 rfl
          have : rowBit wrap row x0 n (c + 1) ((x0 + c) % 64) = false := by simp [rowBit, hd]
          rw [rowBit_succ hstop hx0 hcol (by omega), this]; simp [hb]
        · have hne : x ≠ (x0 + c) % 64 := by
            intro e
            have hd : colOffset x0 x = c := (eq_col_iff hx0 hx (by omega)).1 e
            simp [rowBit, hd] at hb
          refine ⟨x, hx, ?_, ?_⟩
          · rw [rowBit_succ hstop hx0 hx (by omega), hb]; simp [hne]
          · rw [Raster.cell_plot _ _ hx hv hcol] at hc
            simpa [hne, show Config.dispW = 64 from rfl] using hc
      · rintro ⟨x, hx, hb, hc⟩
        rw [rowBit_succ hstop hx0 hx (by omega)] at hb
        by_cases hx' : x = (x0 + c) % 64
        · have hd : colOffset x0 x = c := (eq_col_iff hx0 hx (by omega)).1 hx'
          have : rowBit wrap row x0 n (c + 1) x = false := by simp [rowBit, hd]
          rw [this] at hb
          left
          exact ⟨by simpa [hx'] using hb, by rw [← hx'] at *; exact hc⟩
        · right
          refine ⟨x, hx, by simpa [hx'] using hb, ?_⟩
          rw [Raster.cell_plot _ _ hx hv hcol]
          simpa [hx', show Config.dispW = 64 from rfl] using hc

/-- How far below the start row a cell lies, around the edge. -/
def rowOffset (y0 y : Nat) : Nat := (y + 32 - y0) % 32

/-- A cell is in row `j` of a sprite that starts at `y0` exactly when its offset is `j`. -/
theorem eq_row_iff {y0 y j : Nat} (hy0 : y0 < 32) (hy : y < 32) (hj : j < 32) :
    y = (y0 + j) % 32 ↔ rowOffset y0 y = j := by
  unfold rowOffset; omega

/-- Whether the cell (x, y) is toggled by the rows `k ≤ j < k + n` of a sprite that starts at (x0, y0). -/
def State.rowsBit (s : State) (x0 y0 n k x y : Nat) : Bool :=
  decide (k ≤ rowOffset y0 y) && decide (rowOffset y0 y < k + n) && (s.cfg.displayWrap || decide (y0 ≤ y)) &&
    rowBit s.cfg.displayWrap (s.readByte (s.indexed (rowOffset y0 y))) x0 8 0 x

theorem State.rowsBit_zero (s : State) (x0 y0 k x y : Nat) : s.rowsBit x0 y0 0 k x y = false := by
  by_cases h : k ≤ rowOffset y0 y <;> simp [State.rowsBit, h]

/-- Past the bottom edge nothing is toggled without wrap. -/
theorem State.rowsBit_clipped {s : State} {y0 k y : Nat} (h : 32 ≤ y0 + k ∧ s.cfg.displayWrap = false) (hy0 : y0 < 32)
    (hy : y < 32) (x0 n x : Nat) : s.rowsBit x0 y0 n k x y = false := by
  unfold State.rowsBit
  by_cases hc : k ≤ rowOffset y0 y
  · have : ¬ y0 ≤ y := by unfold rowOffset at hc; omega
    simp [this, h.2]
  · simp [hc]

/-- The first row of the rest. -/
theorem State.rowsBit_first {s : State} {y0 k y : Nat} (h : ¬ (32 ≤ y0 + k ∧ s.cfg.displayWrap = false)) (hy : y < 32)
    (hk : rowOffset y0 y = k) (x0 n x : Nat) :
    s.rowsBit x0 y0 (n + 1) k x y = rowBit s.cfg.displayWrap (s.readByte (s.indexed k)) x0 8 0 x ∧
      s.rowsBit x0 y0 n (k + 1) x y = false := by
  have hedge : (s.cfg.displayWrap || decide (y0 ≤ y)) = true := by
    cases hw : s.cfg.displayWrap
    · have : y0 ≤ y := by simp only [hw, and_true, not_le] at h; unfold rowOffset at hk; omega
      simpa using this
    · rfl
  simp [State.rowsBit, hk, hedge]

/-- The rows after the first. -/
theorem State.rowsBit_later {s : State} {y0 k y : Nat} (hk : rowOffset y0 y ≠ k) (x0 n x : Nat) :
    s.rowsBit x0 y0 (n + 1) k x y = s.rowsBit x0 y0 n (k + 1) x y := by
  have e1 : decide (k ≤ rowOffset y0 y) = decide (k + 1 ≤ rowOffset y0 y) := decide_eq_decide.2 (by omega)
  have e2 : decide (rowOffset y0 y < k + (n + 1)) = decide (rowOffset y0 y < k + 1 + n) := decide_eq_decide.2 (by omega)
  simp only [State.rowsBit, e1, e2]

/-- The rows of a sprite toggle exactly the cells `State.rowsBit` names. -/
theorem State.cell_drawRows (s : State) {x0 y0 : Nat} (n k : Nat) (r : Raster) {x y : Nat} (hx0 : x0 < 64) (hy0 : y0 < 32)
    (hx : x < 64) (hy : y < 32) (hn : k + n ≤ 32) :
    (s.drawRows x0 y0 n k r).disp.cell x y = (r.disp.cell x y ^^ s.rowsBit x0 y0 n k x y) := by
  induction n generalizing k r with
  | zero => simp [State.drawRows, State.rowsBit_zero]
  | succ n ih =>
    rw [State.drawRows]
    by_cases hstop : 32 ≤ y0 + k ∧ s.cfg.displayWrap = false
    · rw [if_pos hstop, State.rowsBit_clipped hstop hy0 hy]; simp
    · have hrow : decide (y = (y0 + k) % Config.dispH) = decide (rowOffset y0 y = k) :=
        decide_eq_decide.2 (eq_row_iff hy0 hy (by omega))
      rw [if_neg hstop, ih _ _ (by omega), Raster.cell_drawCols _ _ _ _ _ _ hx0 hx hy (by omega), hrow]
      by_cases hk : rowOffset y0 y = k
      · rw [(State.rowsBit_first hstop hy hk x0 n x).1, (State.rowsBit_first hstop hy hk x0 n x).2]; simp [hk]
      · rw [State.rowsBit_later hk]; simp [hk]

/-- The rows of a sprite collide iff they toggle a cell that was on before the first. -/
theorem State.hit_drawRows (s : State) {x0 y0 : Nat} (n k : Nat) (r : Raster) (hx0 : x0 < 64) (hy0 : y0 < 32)
    (hn : k + n ≤ 32) :
    (s.drawRows x0 y0 n k r).hit = true ↔
      r.hit = true ∨ ∃ x y, x < 64 ∧ y < 32 ∧ r.disp.cell x y = true ∧ s.rowsBit x0 y0 n k x y = true := by
  induction n generalizing k r with
  | zero => simp [State.drawRows, State.rowsBit_zero]
  | succ n ih =>
    rw [State.drawRows]
    by_cases hstop : 32 ≤ y0 + k ∧ s.cfg.displayWrap = false
    · rw [if_pos hstop]
      refine ⟨.inl, ?_⟩
      rintro (h | ⟨x, y, -, hy, -, h⟩)
      · exact h
      · rw [State.rowsBit_clipped hstop hy0 hy] at h; cases h
    · have hv : (y0 + k) % 32 < 32 := Nat.mod_lt _ (by decide)
      have hcell : ∀ {x y}, x < 64 → y < 32 → y ≠ (y0 + k) % 32 →
          (Raster.drawCols s.cfg.displayWrap (s.readByte (s.indexed k)) x0 ((y0 + k) % Config.dispH) 8 0 r).disp.cell x y =
            r.disp.cell x y := by
        intro x y hx hy hne
        rw [Raster.cell_drawCols _ _ _ _ _ _ hx0 hx hy (by omega)]
        simp [hne, show Config.dispH = 32 from rfl]
      have hfirst : rowOffset y0 ((y0 + k) % 32) = k := (eq_row_iff hy0 hv (by omega)).1 rfl
      rw [if_neg hstop, ih _ _ (by omega), Raster.hit_drawCols _ _ _ _ _ hx0 hv (by omega), or_assoc]
      refine or_congr_right ⟨?_, ?_⟩
      · rintro (⟨x, hx, hb, hc⟩ | ⟨x, y, hx, hy, hc, hb⟩)
        · exact ⟨x, _, hx, hv, hc, (State.rowsBit_first hstop hv hfirst x0 n x).1.trans hb⟩
        · have hk : rowOffset y0 y ≠ k := fun e => by
            rw [(State.rowsBit_first hstop hy e x0 n x).2] at hb; cases hb
          refine ⟨x, y, hx, hy, ?_, (State.rowsBit_later hk x0 n x).trans hb⟩
          rwa [hcell hx hy fun e => hk ((eq_row_iff hy0 hy (by omega)).1 e)] at hc
      · rintro ⟨x, y, hx, hy, hc, hb⟩
        by_cases hk : rowOffset y0 y = k
        · obtain rfl := (eq_row_iff hy0 hy (by omega)).2 hk
          exact .inl ⟨x, hx, (State.rowsBit_first hstop hy hk x0 n x).1.symm.trans hb, hc⟩
        · refine .inr ⟨x, y, hx, hy, ?_, (State.rowsBit_later hk x0 n x).symm.trans hb⟩
          rwa [hcell hx hy fun e => hk ((eq_row_iff hy0 hy (by omega)).1 e)]

end Machine
end Sys2Proof
end

