-- ==== Sys2Proof/Laws/KeyWait.lean ====
section
/-! SUPPORT. Everything the key-wait gate can do (40_cycle.md R64). -/

namespace Sys2Proof
namespace Machine

/-- The scan finds a line exactly when one is pressed, and then the least. -/
theorem leastPressed_eq_some {keys : Word} {k : Nat} :
    leastPressed keys = some k ↔ k < 16 ∧ keys.getLsbD k = true ∧ ∀ j < k, keys.getLsbD j = false := by
  unfold leastPressed
  rw [List.find?_range_eq_some]
  constructor
  · rintro ⟨h1, h2, h3⟩
    exact ⟨List.mem_range.1 h2, h1, fun j hj => by simpa using h3 j hj⟩
  · rintro ⟨h1, h2, h3⟩
    exact ⟨h2, List.mem_range.2 h1, fun j hj => by simpa using h3 j hj⟩

theorem leastPressed_eq_none {keys : Word} : leastPressed keys = none ↔ keys = 0#16 := by
  unfold leastPressed
  rw [List.find?_eq_none]
  constructor
  · intro h
    apply BitVec.eq_of_getLsbD_eq
    intro i hi
    have := h i (List.mem_range.2 hi)
    simpa using this
  · rintro rfl; simp

theorem State.gate_idle {s : State} (h : s.wait = false) : s.gate = some s := by simp [State.gate, h]

theorem State.gate_suspended {s : State} (h : s.wait = true) (hk : s.keys = 0#16) : s.gate = none := by
  simp [State.gate, h, leastPressed_eq_none.2 hk]

theorem State.gate_pressed {s : State} {k : Nat} (h : s.wait = true) (hk : leastPressed s.keys = some k) :
    s.gate = some (s.leaveWait k) := by simp [State.gate, h, hk]

/-- Everything the gate can do. -/
theorem State.gate_cases (s : State) :
    (s.wait = false ∧ s.gate = some s) ∨ (s.wait = true ∧ s.keys = 0#16 ∧ s.gate = none) ∨
      ∃ k, s.wait = true ∧ leastPressed s.keys = some k ∧ s.gate = some (s.leaveWait k) := by
  cases hw : s.wait
  · exact .inl ⟨rfl, State.gate_idle hw⟩
  · cases hk : leastPressed s.keys with
    | none => exact .inr (.inl ⟨rfl, leastPressed_eq_none.1 hk, State.gate_suspended hw (leastPressed_eq_none.1 hk)⟩)
    | some k => exact .inr (.inr ⟨k, rfl, rfl, State.gate_pressed hw hk⟩)

end Machine
end Sys2Proof
end

