-- ==== Sys2Proof/Laws/PerInstr.lean ====
section
/-! SUPPORT. The laws stated per instruction. `EncodeRow`: an instruction's word matches its own row of the opcode map
(30_encoding.md R55), and the row is one of the 34. -/

namespace Sys2Proof
namespace Laws

/-- Masks of R55 as fields: the family alone, the family and the low byte, the family and the low nibble. -/
theorem mask_family (f : Nibble) (nnn : Addr) : (f ++ nnn : Word) &&& 0xF000#16 = f ++ 0#12 := by
  rw [show 0xF000#16 = 0xF#4 ++ 0#12 from rfl, BitVec.and_append]
  congr 1
  · exact BitVec.and_allOnes
  · exact BitVec.and_zero

theorem mask_familyB (f x : Nibble) (nn : Byte) : (f ++ x ++ nn : Word) &&& 0xF000#16 = f ++ 0#4 ++ 0#8 := by
  rw [show 0xF000#16 = 0xF#4 ++ 0#4 ++ 0#8 from rfl, BitVec.and_append, BitVec.and_append]
  congr 1
  · congr 1
    · exact BitVec.and_allOnes
    · exact BitVec.and_zero
  · exact BitVec.and_zero

theorem mask_lowByte (f x : Nibble) (nn : Byte) : (f ++ x ++ nn : Word) &&& 0xF0FF#16 = f ++ 0#4 ++ nn := by
  rw [show 0xF0FF#16 = 0xF#4 ++ 0#4 ++ 0xFF#8 from rfl, BitVec.and_append, BitVec.and_append]
  congr 1
  · congr 1
    · exact BitVec.and_allOnes
    · exact BitVec.and_zero
  · exact BitVec.and_allOnes

theorem mask_familyC (f x y n : Nibble) : (f ++ x ++ y ++ n : Word) &&& 0xF000#16 = f ++ 0#4 ++ 0#4 ++ 0#4 := by
  rw [show 0xF000#16 = 0xF#4 ++ 0#4 ++ 0#4 ++ 0#4 from rfl, BitVec.and_append, BitVec.and_append,
    BitVec.and_append]
  congr 1
  · congr 1
    · congr 1
      · exact BitVec.and_allOnes
      · exact BitVec.and_zero
    · exact BitVec.and_zero
  · exact BitVec.and_zero

theorem mask_lowNibble (f x y n : Nibble) : (f ++ x ++ y ++ n : Word) &&& 0xF00F#16 = f ++ 0#4 ++ 0#4 ++ n := by
  rw [show 0xF00F#16 = 0xF#4 ++ 0#4 ++ 0#4 ++ 0xF#4 from rfl, BitVec.and_append, BitVec.and_append,
    BitVec.and_append]
  congr 1
  · congr 1
    · congr 1
      · exact BitVec.and_allOnes
      · exact BitVec.and_zero
    · exact BitVec.and_zero
  · exact BitVec.and_allOnes

/-- An instruction's word matches its row, and the row stands in the map. -/
def EncodeRow.Statement (i : Instr) : Prop := rowMatches (encode i) i.row = true ∧ i.row ∈ opcodeTable

theorem EncodeRow.cls (ign : Nibble) : EncodeRow.Statement (.cls ign) :=
  ⟨by rw [rowMatches, beq_iff_eq]; exact mask_lowByte _ _ _,
    (by decide : ((0xF0FF, 0x00E0) : Row) ∈ opcodeTable)⟩

theorem EncodeRow.ret (ign : Nibble) : EncodeRow.Statement (.ret ign) :=
  ⟨by rw [rowMatches, beq_iff_eq]; exact mask_lowByte _ _ _,
    (by decide : ((0xF0FF, 0x00EE) : Row) ∈ opcodeTable)⟩

theorem EncodeRow.jp (nnn : Addr) : EncodeRow.Statement (.jp nnn) :=
  ⟨by rw [rowMatches, beq_iff_eq]; exact mask_family _ _,
    (by decide : ((0xF000, 0x1000) : Row) ∈ opcodeTable)⟩

theorem EncodeRow.call (nnn : Addr) : EncodeRow.Statement (.call nnn) :=
  ⟨by rw [rowMatches, beq_iff_eq]; exact mask_family _ _,
    (by decide : ((0xF000, 0x2000) : Row) ∈ opcodeTable)⟩

theorem EncodeRow.seImm (x : RegIx) (nn : Byte) : EncodeRow.Statement (.seImm x nn) :=
  ⟨by rw [rowMatches, beq_iff_eq]; exact mask_familyB _ _ _,
    (by decide : ((0xF000, 0x3000) : Row) ∈ opcodeTable)⟩

theorem EncodeRow.sneImm (x : RegIx) (nn : Byte) : EncodeRow.Statement (.sneImm x nn) :=
  ⟨by rw [rowMatches, beq_iff_eq]; exact mask_familyB _ _ _,
    (by decide : ((0xF000, 0x4000) : Row) ∈ opcodeTable)⟩

theorem EncodeRow.seReg (x y : RegIx) (ign : Nibble) : EncodeRow.Statement (.seReg x y ign) :=
  ⟨by rw [rowMatches, beq_iff_eq]; exact mask_familyC _ _ _ _,
    (by decide : ((0xF000, 0x5000) : Row) ∈ opcodeTable)⟩

theorem EncodeRow.ldImm (x : RegIx) (nn : Byte) : EncodeRow.Statement (.ldImm x nn) :=
  ⟨by rw [rowMatches, beq_iff_eq]; exact mask_familyB _ _ _,
    (by decide : ((0xF000, 0x6000) : Row) ∈ opcodeTable)⟩

theorem EncodeRow.addImm (x : RegIx) (nn : Byte) : EncodeRow.Statement (.addImm x nn) :=
  ⟨by rw [rowMatches, beq_iff_eq]; exact mask_familyB _ _ _,
    (by decide : ((0xF000, 0x7000) : Row) ∈ opcodeTable)⟩

theorem EncodeRow.ldReg (x y : RegIx) : EncodeRow.Statement (.ldReg x y) :=
  ⟨by rw [rowMatches, beq_iff_eq]; exact mask_lowNibble _ _ _ _,
    (by decide : ((0xF00F, 0x8000) : Row) ∈ opcodeTable)⟩

theorem EncodeRow.orReg (x y : RegIx) : EncodeRow.Statement (.orReg x y) :=
  ⟨by rw [rowMatches, beq_iff_eq]; exact mask_lowNibble _ _ _ _,
    (by decide : ((0xF00F, 0x8001) : Row) ∈ opcodeTable)⟩

theorem EncodeRow.andReg (x y : RegIx) : EncodeRow.Statement (.andReg x y) :=
  ⟨by rw [rowMatches, beq_iff_eq]; exact mask_lowNibble _ _ _ _,
    (by decide : ((0xF00F, 0x8002) : Row) ∈ opcodeTable)⟩

theorem EncodeRow.xorReg (x y : RegIx) : EncodeRow.Statement (.xorReg x y) :=
  ⟨by rw [rowMatches, beq_iff_eq]; exact mask_lowNibble _ _ _ _,
    (by decide : ((0xF00F, 0x8003) : Row) ∈ opcodeTable)⟩

theorem EncodeRow.addReg (x y : RegIx) : EncodeRow.Statement (.addReg x y) :=
  ⟨by rw [rowMatches, beq_iff_eq]; exact mask_lowNibble _ _ _ _,
    (by decide : ((0xF00F, 0x8004) : Row) ∈ opcodeTable)⟩

theorem EncodeRow.sub (x y : RegIx) : EncodeRow.Statement (.sub x y) :=
  ⟨by rw [rowMatches, beq_iff_eq]; exact mask_lowNibble _ _ _ _,
    (by decide : ((0xF00F, 0x8005) : Row) ∈ opcodeTable)⟩

theorem EncodeRow.shr (x y : RegIx) : EncodeRow.Statement (.shr x y) :=
  ⟨by rw [rowMatches, beq_iff_eq]; exact mask_lowNibble _ _ _ _,
    (by decide : ((0xF00F, 0x8006) : Row) ∈ opcodeTable)⟩

theorem EncodeRow.subn (x y : RegIx) : EncodeRow.Statement (.subn x y) :=
  ⟨by rw [rowMatches, beq_iff_eq]; exact mask_lowNibble _ _ _ _,
    (by decide : ((0xF00F, 0x8007) : Row) ∈ opcodeTable)⟩

theorem EncodeRow.shl (x y : RegIx) : EncodeRow.Statement (.shl x y) :=
  ⟨by rw [rowMatches, beq_iff_eq]; exact mask_lowNibble _ _ _ _,
    (by decide : ((0xF00F, 0x800E) : Row) ∈ opcodeTable)⟩

theorem EncodeRow.sneReg (x y : RegIx) (ign : Nibble) : EncodeRow.Statement (.sneReg x y ign) :=
  ⟨by rw [rowMatches, beq_iff_eq]; exact mask_familyC _ _ _ _,
    (by decide : ((0xF000, 0x9000) : Row) ∈ opcodeTable)⟩

theorem EncodeRow.ldI (nnn : Addr) : EncodeRow.Statement (.ldI nnn) :=
  ⟨by rw [rowMatches, beq_iff_eq]; exact mask_family _ _,
    (by decide : ((0xF000, 0xA000) : Row) ∈ opcodeTable)⟩

theorem EncodeRow.jpV0 (nnn : Addr) : EncodeRow.Statement (.jpV0 nnn) :=
  ⟨by rw [rowMatches, beq_iff_eq]; exact mask_family _ _,
    (by decide : ((0xF000, 0xB000) : Row) ∈ opcodeTable)⟩

theorem EncodeRow.rnd (x : RegIx) (nn : Byte) : EncodeRow.Statement (.rnd x nn) :=
  ⟨by rw [rowMatches, beq_iff_eq]; exact mask_familyB _ _ _,
    (by decide : ((0xF000, 0xC000) : Row) ∈ opcodeTable)⟩

theorem EncodeRow.drw (x y : RegIx) (n : Nibble) : EncodeRow.Statement (.drw x y n) :=
  ⟨by rw [rowMatches, beq_iff_eq]; exact mask_familyC _ _ _ _,
    (by decide : ((0xF000, 0xD000) : Row) ∈ opcodeTable)⟩

theorem EncodeRow.skp (x : RegIx) : EncodeRow.Statement (.skp x) :=
  ⟨by rw [rowMatches, beq_iff_eq]; exact mask_lowByte _ _ _,
    (by decide : ((0xF0FF, 0xE09E) : Row) ∈ opcodeTable)⟩

theorem EncodeRow.sknp (x : RegIx) : EncodeRow.Statement (.sknp x) :=
  ⟨by rw [rowMatches, beq_iff_eq]; exact mask_lowByte _ _ _,
    (by decide : ((0xF0FF, 0xE0A1) : Row) ∈ opcodeTable)⟩

theorem EncodeRow.ldVxDt (x : RegIx) : EncodeRow.Statement (.ldVxDt x) :=
  ⟨by rw [rowMatches, beq_iff_eq]; exact mask_lowByte _ _ _,
    (by decide : ((0xF0FF, 0xF007) : Row) ∈ opcodeTable)⟩

theorem EncodeRow.ldVxK (x : RegIx) : EncodeRow.Statement (.ldVxK x) :=
  ⟨by rw [rowMatches, beq_iff_eq]; exact mask_lowByte _ _ _,
    (by decide : ((0xF0FF, 0xF00A) : Row) ∈ opcodeTable)⟩

theorem EncodeRow.ldDtVx (x : RegIx) : EncodeRow.Statement (.ldDtVx x) :=
  ⟨by rw [rowMatches, beq_iff_eq]; exact mask_lowByte _ _ _,
    (by decide : ((0xF0FF, 0xF015) : Row) ∈ opcodeTable)⟩

theorem EncodeRow.ldStVx (x : RegIx) : EncodeRow.Statement (.ldStVx x) :=
  ⟨by rw [rowMatches, beq_iff_eq]; exact mask_lowByte _ _ _,
    (by decide : ((0xF0FF, 0xF018) : Row) ∈ opcodeTable)⟩

theorem EncodeRow.addI (x : RegIx) : EncodeRow.Statement (.addI x) :=
  ⟨by rw [rowMatches, beq_iff_eq]; exact mask_lowByte _ _ _,
    (by decide : ((0xF0FF, 0xF01E) : Row) ∈ opcodeTable)⟩

theorem EncodeRow.ldF (x : RegIx) : EncodeRow.Statement (.ldF x) :=
  ⟨by rw [rowMatches, beq_iff_eq]; exact mask_lowByte _ _ _,
    (by decide : ((0xF0FF, 0xF029) : Row) ∈ opcodeTable)⟩

theorem EncodeRow.ldB (x : RegIx) : EncodeRow.Statement (.ldB x) :=
  ⟨by rw [rowMatches, beq_iff_eq]; exact mask_lowByte _ _ _,
    (by decide : ((0xF0FF, 0xF033) : Row) ∈ opcodeTable)⟩

theorem EncodeRow.stRegs (x : RegIx) : EncodeRow.Statement (.stRegs x) :=
  ⟨by rw [rowMatches, beq_iff_eq]; exact mask_lowByte _ _ _,
    (by decide : ((0xF0FF, 0xF055) : Row) ∈ opcodeTable)⟩

theorem EncodeRow.ldRegs (x : RegIx) : EncodeRow.Statement (.ldRegs x) :=
  ⟨by rw [rowMatches, beq_iff_eq]; exact mask_lowByte _ _ _,
    (by decide : ((0xF0FF, 0xF065) : Row) ∈ opcodeTable)⟩

end Laws
end Sys2Proof
end

