-- ==== Sys2Proof/Laws/Stack.lean ====
section
/-! SUPPORT. Everything a push and a pop can do (41_display_control.md R73, R74). -/

namespace Sys2Proof
namespace Machine

/-- A push overflows exactly at SP = 16. -/
theorem State.push_eq_none {s : State} {w : Word} : s.push w = none ↔ s.sp.val = 16 := by
  unfold State.push
  have := s.sp.isLt
  split_ifs with h
  · simp only [false_iff]; exact Nat.ne_of_lt h
  · simp only [true_iff]; exact le_antisymm (Nat.le_of_lt_succ this) (not_lt.1 h)

/-- A push that does not overflow writes the entry at SP and counts it; nothing else changes. -/
theorem State.push_eq_some {s t : State} {w : Word} (h : s.push w = some t) :
    t.sp.val = s.sp.val + 1 ∧ t.stack[s.sp.val]? = some w ∧
      (∀ k : Nat, k ≠ s.sp.val → t.stack[k]? = s.stack[k]?) ∧ Unchanged [.stack, .sp] s t := by
  unfold State.push at h
  split_ifs at h with hsp
  obtain rfl := Option.some.inj h
  refine ⟨rfl, ?_, fun k hk => ?_, ?_⟩
  · have h16 : s.sp.val < 16 := hsp
    simp [h16]
  · simp [Ne.symm hk]
  · intro e he; cases e <;> simp_all [Element.same] <;> intros <;> rfl

/-- A pop underflows exactly at SP = 0. -/
theorem State.pop_eq_none {s : State} : s.pop = none ↔ s.sp.val = 0 := by
  unfold State.pop; split_ifs with h <;> simp [h]

/-- A pop that does not underflow gives the top entry and uncounts it; nothing else changes, STACK among it. -/
theorem State.pop_eq_some {s t : State} {w : Word} (h : s.pop = some (w, t)) :
    t.sp.val + 1 = s.sp.val ∧ s.stack[t.sp.val]? = some w ∧ Unchanged [.sp] s t := by
  unfold State.pop at h
  split_ifs at h with hsp
  simp only [Option.some.injEq, Prod.mk.injEq] at h
  obtain ⟨rfl, rfl⟩ := h
  refine ⟨Nat.succ_pred_eq_of_ne_zero hsp, ?_, ?_⟩
  · simp
  · intro e he; cases e <;> simp_all [Element.same] <;> intros <;> rfl

end Machine
end Sys2Proof
end

