-- ==== Sys2Proof/Laws/Step.lean ====
section
/-! SUPPORT. Everything a cycle and a step can do, said once: which transaction a step takes, and the three ways a cycle goes
(40_cycle.md R63-R68). -/

namespace Sys2Proof
namespace Machine

variable {s t : State} {rest : List Transaction}

/-- A scheduled `step` is a cycle of the state without it, with the caller's byte presented. -/
theorem step_of_step {r : Option Byte} (h : s.schedule = .step r :: rest) :
    step s = (({ s with schedule := rest } : State).presentRand r).cycle := by
  simp only [step, State.nextTransaction, h, State.transact]

/-- With nothing scheduled a step is a cycle whose byte is left open (log 18). -/
theorem step_of_empty (h : s.schedule = []) : step s = (s.presentRand none).cycle := by
  simp only [step, State.nextTransaction, h, State.transact]

/-- Either way a cycle is taken, a step is the cycle of the state without the transaction. -/
theorem step_of_cycle {r : Option Byte} (h : s.NextIsCycle r rest) :
    step s = (({ s with schedule := rest } : State).presentRand r).cycle := by
  rcases h with h | ⟨h, rfl, rfl⟩
  · exact step_of_step h
  · rw [step_of_empty h, ← h]

theorem step_of_reset (h : s.schedule = .reset :: rest) :
    step s = .next ({ s with schedule := rest } : State).applyReset := by
  simp only [step, State.nextTransaction, h, State.transact]

theorem step_of_load {a : Word} {b : Byte} (h : s.schedule = .load a b :: rest) :
    step s = .next (({ s with schedule := rest } : State).applyLoad a b) := by
  simp only [step, State.nextTransaction, h, State.transact]

theorem step_of_keysIn {lines : Word} (h : s.schedule = .keysIn lines :: rest) :
    step s = .next (({ s with schedule := rest } : State).applyKeys lines) := by
  simp only [step, State.nextTransaction, h, State.transact]

theorem step_of_tick (h : s.schedule = .tick :: rest) :
    step s = .next ({ s with schedule := rest } : State).applyTick := by
  simp only [step, State.nextTransaction, h, State.transact]

theorem step_of_redrawAck (h : s.schedule = .redrawAck :: rest) :
    step s = .next ({ s with schedule := rest } : State).applyAck := by
  simp only [step, State.nextTransaction, h, State.transact]

/-- Outside key-wait a cycle is the fetch and what it fetched. -/
theorem State.cycle_idle (h : s.wait = false) : s.cycle = s.fetchAndRun := by
  simp only [State.cycle, State.gate_idle h]

/-- In key-wait with no line pressed a cycle changes nothing. -/
theorem State.cycle_suspended (hw : s.wait = true) (hk : s.keys = 0#16) : s.cycle = .next s := by
  simp only [State.cycle, State.gate_suspended hw hk]

/-- In key-wait with `k` the least pressed line the same cycle goes on to the fetch. -/
theorem State.cycle_pressed {k : Nat} (hw : s.wait = true) (hk : leastPressed s.keys = some k) :
    s.cycle = (s.leaveWait k).fetchAndRun := by
  simp only [State.cycle, State.gate_pressed hw hk]

/-- A fetched word that decodes is executed after the PC has moved. -/
theorem State.fetchAndRun_ok {i : Instr} (h : decodeWord s.fetchWord = .ok i) : s.fetchAndRun = exec i s.advance := by
  simp only [State.fetchAndRun, h]

/-- A fetched word that does not decode is reported. -/
theorem State.fetchAndRun_error {e : Reject} (h : decodeWord s.fetchWord = .error e) :
    s.fetchAndRun = .next (s.advance.report .unknownOpcode s.pc s.fetchWord) := by
  simp only [State.fetchAndRun, h]

/-- The two outcomes of a fetch. -/
theorem State.fetchAndRun_cases (h : s.fetchAndRun = .next t) :
    (∃ i, decodeWord s.fetchWord = .ok i ∧ exec i s.advance = .next t) ∨
    (∃ e, decodeWord s.fetchWord = .error e ∧ t = s.advance.report .unknownOpcode s.pc s.fetchWord) := by
  cases hd : decodeWord s.fetchWord with
  | ok i => exact .inl ⟨i, rfl, by rwa [State.fetchAndRun_ok hd] at h⟩
  | error e =>
    rw [State.fetchAndRun_error hd] at h
    exact .inr ⟨e, rfl, (Host.Outcome.next.inj h).symm⟩

/-- The three outcomes of a cycle: suspended, or a fetch from the state itself, or a fetch from the state with the key
index in the pending register. -/
theorem State.cycle_cases (h : s.cycle = .next t) :
    (t = s ∧ s.wait = true ∧ s.keys = 0#16) ∨
    (s.wait = false ∧ s.fetchAndRun = .next t) ∨
    (∃ k, s.wait = true ∧ leastPressed s.keys = some k ∧ (s.leaveWait k).fetchAndRun = .next t) := by
  rcases State.gate_cases s with ⟨hw, _⟩ | ⟨hw, hk, _⟩ | ⟨k, hw, hk, _⟩
  · exact .inr (.inl ⟨hw, by rwa [State.cycle_idle hw] at h⟩)
  · rw [State.cycle_suspended hw hk] at h
    exact .inl ⟨(Host.Outcome.next.inj h).symm, hw, hk⟩
  · exact .inr (.inr ⟨k, hw, hk, by rwa [State.cycle_pressed hw hk] at h⟩)

/-- Leaving key-wait writes one register and the latch. -/
theorem Unchanged.leaveWait (s : State) (k : Nat) : Unchanged [.v, .wait] s (s.leaveWait k) := by
  intro e he; cases e <;> simp_all [Element.same]

/-- The word the fetch reads does not depend on the key-wait exit. -/
theorem State.fetchWord_leaveWait (s : State) (k : Nat) : (s.leaveWait k).fetchWord = s.fetchWord := rfl

end Machine
end Sys2Proof
end

