-- ==== Sys2Proof/Laws/Transfer.lean ====
section
/-! SUPPORT. What a block store and a block load do (45_index_memory.md R109, R110): the cells or registers they write, and
that they write nothing else. -/

namespace Sys2Proof
namespace Machine

theorem ea_indexed_toNat (s : State) (k : Nat) : (ea (s.indexed k)).toNat = (s.i.toNat + k) % 4096 := by
  simp only [ea, State.indexed, BitVec.extractLsb'_toNat, BitVec.toNat_add, BitVec.toNat_ofNat, Nat.shiftRight_zero]
  omega

/-- Two bytes of one transfer of at most 4096 bytes share a cell only if they are the same byte. -/
theorem ea_indexed_inj {s : State} {j k : Nat} (hj : j < 4096) (hk : k < 4096)
    (h : ea (s.indexed j) = ea (s.indexed k)) : j = k := by
  have := congrArg BitVec.toNat h
  rw [ea_indexed_toNat, ea_indexed_toNat] at this
  omega

theorem State.storeRegsFrom_unchanged (n k : Nat) (s : State) : Unchanged [.mem] s (s.storeRegsFrom k n) := by
  induction n generalizing k s with
  | zero => exact Unchanged.refl _ s
  | succ n ih => exact (Unchanged.writeByte s _ _).trans (ih _ _)

/-- A block store leaves every byte outside its cells. -/
theorem State.storeRegsFrom_other (n k : Nat) (s : State) (a : Word)
    (h : ∀ j, k ≤ j → j < k + n → ea a ≠ ea (s.indexed j)) : (s.storeRegsFrom k n).readByte a = s.readByte a := by
  induction n generalizing k s with
  | zero => rfl
  | succ n ih =>
    rw [State.storeRegsFrom, ih]
    · rw [State.readByte_writeByte, if_neg (h k le_rfl (by omega))]
    · intro j h1 h2; exact h j (by omega) (by omega)

/-- A block store of at most 16 registers puts `V[j]` at `Ea(I + j)`. -/
theorem State.storeRegsFrom_stored (n k : Nat) (s : State) (hn : k + n ≤ 16) (j : Nat) (h1 : k ≤ j) (h2 : j < k + n) :
    (s.storeRegsFrom k n).readByte (s.indexed j) = s.getV (BitVec.ofNat 4 j) := by
  induction n generalizing k s with
  | zero => omega
  | succ n ih =>
    rw [State.storeRegsFrom]
    rcases Nat.eq_or_lt_of_le h1 with rfl | hlt
    · rw [State.storeRegsFrom_other, State.readByte_writeByte, if_pos rfl]
      intro m hm1 hm2 he
      have := ea_indexed_inj (s := s) (by omega) (by omega) he
      omega
    · exact ih (k + 1) _ (by omega) hlt (by omega)

/-- A block store keeps memory's canonical form. -/
theorem State.storeRegsFrom_wf (n k : Nat) {s : State} (h : Memory.wf s.cfg.font s.mem) :
    Memory.wf (s.storeRegsFrom k n).cfg.font (s.storeRegsFrom k n).mem := by
  induction n generalizing k s with
  | zero => exact h
  | succ n ih => exact ih (k + 1) (s := s.writeByte _ _) (State.writeByte_wf h _ _)

theorem State.loadRegsFrom_unchanged (n k : Nat) (s : State) : Unchanged [.v] s (s.loadRegsFrom k n) := by
  induction n generalizing k s with
  | zero => exact Unchanged.refl _ s
  | succ n ih => exact (Unchanged.setV s _ _).trans (ih _ _)

theorem ofNat4_inj {j k : Nat} (hj : j < 16) (hk : k < 16) (h : BitVec.ofNat 4 j = BitVec.ofNat 4 k) : j = k := by
  have := congrArg BitVec.toNat h
  simp only [BitVec.toNat_ofNat] at this
  omega

/-- A block load leaves every register outside its range. -/
theorem State.loadRegsFrom_other (n k : Nat) (s : State) (r : RegIx)
    (h : ∀ j, k ≤ j → j < k + n → r ≠ BitVec.ofNat 4 j) : (s.loadRegsFrom k n).getV r = s.getV r := by
  induction n generalizing k s with
  | zero => rfl
  | succ n ih =>
    rw [State.loadRegsFrom, ih]
    · rw [State.getV_setV, if_neg (h k le_rfl (by omega))]
    · intro j h1 h2; exact h j (by omega) (by omega)

/-- A block load of at most 16 registers puts the byte at `Ea(I + j)` into `V[j]`. -/
theorem State.loadRegsFrom_loaded (n k : Nat) (s : State) (hn : k + n ≤ 16) (j : Nat) (h1 : k ≤ j) (h2 : j < k + n) :
    (s.loadRegsFrom k n).getV (BitVec.ofNat 4 j) = s.readByte (s.indexed j) := by
  induction n generalizing k s with
  | zero => omega
  | succ n ih =>
    rw [State.loadRegsFrom]
    rcases Nat.eq_or_lt_of_le h1 with rfl | hlt
    · rw [State.loadRegsFrom_other, State.getV_setV, if_pos rfl]
      intro m hm1 hm2 he
      have := ofNat4_inj (by omega) (by omega) he
      omega
    · rw [ih (k + 1) _ (by omega) hlt (by omega), State.readByte_setV]
      rfl

/-- A block load writes registers only: memory and options are the same data. -/
theorem State.loadRegsFrom_mem (n k : Nat) (s : State) : (s.loadRegsFrom k n).mem = s.mem := by
  induction n generalizing k s with
  | zero => rfl
  | succ n ih => rw [State.loadRegsFrom, ih]; rfl

end Machine
end Sys2Proof
end

