-- ==== Sys2Proof/Tests/Slice0.lean ====
section
/-! SUPPORT. The model's own tests: words written out from the encoding tables, ill-formed terms, single steps whose results
are the vectors of 95_test_vectors.md (each test names its vector), and for each statement with hypotheses a state that
meets them. -/

namespace Sys2Proof
namespace Tests

open Machine

/-! ### Decoding: words written from 30_encoding.md R52 and R55 -/

theorem test_decode_family0 : decodeWord 0b0000_0101_1110_0000#16 = .ok (.cls 0x5#4) ∧
    decodeWord 0b0000_0000_1110_1110#16 = .ok (.ret 0x0#4) := by decide

theorem test_decode_addresses : decodeWord 0b0001_0010_0011_0100#16 = .ok (.jp 0x234#12) ∧
    decodeWord 0b0010_1111_1110_1101#16 = .ok (.call 0xFED#12) ∧
    decodeWord 0b1010_0001_0010_0011#16 = .ok (.ldI 0x123#12) ∧
    decodeWord 0b1011_1000_0000_0001#16 = .ok (.jpV0 0x801#12) := by decide

theorem test_decode_immediates : decodeWord 0b0011_1011_0111_1110#16 = .ok (.seImm 0xB#4 0x7E#8) ∧
    decodeWord 0b0100_0001_1000_0001#16 = .ok (.sneImm 0x1#4 0x81#8) ∧
    decodeWord 0b0110_1010_1001_1100#16 = .ok (.ldImm 0xA#4 0x9C#8) ∧
    decodeWord 0b0111_0001_1111_1110#16 = .ok (.addImm 0x1#4 0xFE#8) ∧
    decodeWord 0b1100_0010_0000_1111#16 = .ok (.rnd 0x2#4 0x0F#8) := by decide

theorem test_decode_registers : decodeWord 0b0101_0001_0010_0111#16 = .ok (.seReg 0x1#4 0x2#4 0x7#4) ∧
    decodeWord 0b1001_0011_0100_1000#16 = .ok (.sneReg 0x3#4 0x4#4 0x8#4) ∧
    decodeWord 0b1101_0001_0010_1111#16 = .ok (.drw 0x1#4 0x2#4 0xF#4) := by decide

theorem test_decode_family8 : decodeWord 0b1000_0001_0010_0000#16 = .ok (.ldReg 0x1#4 0x2#4) ∧
    decodeWord 0b1000_0001_0010_0001#16 = .ok (.orReg 0x1#4 0x2#4) ∧
    decodeWord 0b1000_0001_0010_0010#16 = .ok (.andReg 0x1#4 0x2#4) ∧
    decodeWord 0b1000_0001_0010_0011#16 = .ok (.xorReg 0x1#4 0x2#4) ∧
    decodeWord 0b1000_0001_0010_0100#16 = .ok (.addReg 0x1#4 0x2#4) ∧
    decodeWord 0b1000_0001_0010_0101#16 = .ok (.sub 0x1#4 0x2#4) ∧
    decodeWord 0b1000_0001_0010_0110#16 = .ok (.shr 0x1#4 0x2#4) ∧
    decodeWord 0b1000_0001_0010_0111#16 = .ok (.subn 0x1#4 0x2#4) ∧
    decodeWord 0b1000_0001_0010_1110#16 = .ok (.shl 0x1#4 0x2#4) := by decide

theorem test_decode_familyE : decodeWord 0b1110_0101_1001_1110#16 = .ok (.skp 0x5#4) ∧
    decodeWord 0b1110_0101_1010_0001#16 = .ok (.sknp 0x5#4) := by decide

theorem test_decode_familyF : decodeWord 0b1111_0011_0000_0111#16 = .ok (.ldVxDt 0x3#4) ∧
    decodeWord 0b1111_0011_0000_1010#16 = .ok (.ldVxK 0x3#4) ∧
    decodeWord 0b1111_0011_0001_0101#16 = .ok (.ldDtVx 0x3#4) ∧
    decodeWord 0b1111_0011_0001_1000#16 = .ok (.ldStVx 0x3#4) ∧
    decodeWord 0b1111_0010_0001_1110#16 = .ok (.addI 0x2#4) ∧
    decodeWord 0b1111_0010_0010_1001#16 = .ok (.ldF 0x2#4) ∧
    decodeWord 0b1111_0010_0011_0011#16 = .ok (.ldB 0x2#4) ∧
    decodeWord 0b1111_0001_0101_0101#16 = .ok (.stRegs 0x1#4) ∧
    decodeWord 0b1111_0001_0110_0101#16 = .ok (.ldRegs 0x1#4) := by decide

/-- The table of unknown encodings (R58), one word of each of its rows. -/
theorem test_decode_unknown : decodeWord 0x0123#16 = .error (.unknownFamily0 0x0123#16) ∧
    decodeWord 0x0000#16 = .error (.unknownFamily0 0x0000#16) ∧
    decodeWord 0x8128#16 = .error (.unknownFamily8 0x8128#16) ∧
    decodeWord 0x812F#16 = .error (.unknownFamily8 0x812F#16) ∧
    decodeWord 0xE1FF#16 = .error (.unknownFamilyE 0xE1FF#16) ∧
    decodeWord 0xF1FF#16 = .error (.unknownFamilyF 0xF1FF#16) := by decide

/-- The high byte comes first; fewer than two bytes are no word (R51). -/
theorem test_decode_bytes : decodeBytes [0x6A#8, 0x9C#8, 0x11#8] = .ok (.ldImm 0xA#4 0x9C#8, [0x11#8]) ∧
    decodeBytes [0x6A#8] = .error .truncated ∧ decodeBytes [] = .error .truncated ∧
    decodeTableWord 16 0x6A9C = some (.ldImm 0xA#4 0x9C#8) ∧ decodeTableWord 16 0x8128 = none := by decide

/-! ### WellFormed: an ill-formed term for each check -/

theorem test_knownWord_refuses : knownWord 0x0123#16 = false ∧ knownWord 0x8128#16 = false ∧
    knownWord 0xE1FF#16 = false ∧ knownWord 0xF1FF#16 = false ∧ knownWord 0x05E0#16 = true := by decide

theorem test_canonical_refuses : (Instr.cls 0x5#4).canonical = false ∧ (Instr.ret 0x1#4).canonical = false ∧
    (Instr.seReg 0x1#4 0x2#4 0x7#4).canonical = false ∧ (Instr.sneReg 0x1#4 0x2#4 0x7#4).canonical = false ∧
    (Instr.cls 0x0#4).canonical = true := by decide

theorem test_romFits_refuses : romFits (List.replicate 3585 0x00#8) = false ∧
    romFits (List.replicate 3584 0x00#8) = true := by
  unfold romFits; rw [List.length_replicate, List.length_replicate]; decide

theorem test_loadable_refuses : loadable 0x1000#16 = false ∧ loadable 0x0FFF#16 = true := by decide

/-! ### Single steps -/

/-- A reading of the next state, none where there is none. -/
def out {α : Type} (o : Host.Outcome State Fault Refusal) (f : State → α) : Option α :=
  match o with
  | .next t => some (f t)
  | .fault _ | .refused _ => none

/-- The reset state with an option changed. -/
def withCfg (f : Config.Options → Config.Options) : State := State.resetWith (f Config.Options.default)

/-- One step of `s` with the word `w` at PC, read through `f`. -/
def run {α : Type} (s : State) (w : Nat) (f : State → α) : Option α := out (step (s.withFetchWord 16 w)) f

/-- The same with a byte from the caller. -/
def runRand {α : Type} (s : State) (b : Byte) (w : Nat) (f : State → α) : Option α :=
  out (step { s.withFetchWord 16 w with schedule := [.step (some b)] }) f

/-- The state right after reset. -/
def r0 : State := State.reset

/-- The display with the cells (3, 3) and (63, 31) on. -/
def twoCells : Display := Display.toggle (Display.toggle 0#2048 3 3) 63 31

/-- V-C2. -/
theorem test_cls : run (r0.setDisp twoCells) 0x05E0 (fun t => (t.disp.cell 3 3, t.disp.cell 63 31, t.redraw, t.pc)) =
    some (false, false, true, 0x0202#16) := by decide +kernel

/-- V-C3. -/
theorem test_ret_pops : run { r0 with sp := 1, stack := r0.stack.set 0 0x0206#16 } 0x00EE
    (fun t => (t.pc, t.sp.val, t.stack[0])) = some (0x0206#16, 0, 0x0206#16) := by decide

/-- V-C4. -/
theorem test_ret_underflow : run r0 0x00EE (fun t => (t.sp.val, t.diag)) =
    some (0, [{ code := .stackUnderflow, pc := 0x0200#16, opcode := 0x00EE#16 }]) := by decide

/-- V-C9. -/
theorem test_jp : run r0 0x1FFE (fun t => t.pc) = some 0x0FFE#16 := by decide

/-- V-C7. -/
theorem test_call_last : run { r0 with sp := 15 } 0x2300 (fun t => (t.stack[15], t.sp.val, t.pc, t.diag)) =
    some (0x0202#16, 16, 0x0300#16, []) := by decide

/-- V-C6. -/
theorem test_call_overflow : run { r0 with sp := 16 } 0x2300 (fun t => (t.pc, t.sp.val, t.diag)) =
    some (0x0202#16, 16, [{ code := .stackOverflow, pc := 0x0200#16, opcode := 0x2300#16 }]) := by decide

/-- V-C12. -/
theorem test_jpV0 : run (r0.setV 0x0#4 0xFF#8) 0xBFFF (fun t => t.pc) = some 0x10FE#16 := by decide

/-- V-S1. -/
theorem test_seImm : run (r0.setV 0x1#4 0x05#8) 0x3105 (fun t => t.pc) = some 0x0204#16 := by decide

/-- V-S9. -/
theorem test_seImm_wraps : run (r0.setPc 0xFFFE#16) 0x3000 (fun t => t.pc) = some 0x0002#16 := by decide

/-- V-S3, V-S4. -/
theorem test_sneImm : run (r0.setV 0x1#4 0x05#8) 0x4105 (fun t => t.pc) = some 0x0202#16 ∧
    run (r0.setV 0x1#4 0x05#8) 0x4106 (fun t => t.pc) = some 0x0204#16 := by decide

/-- V-S6. -/
theorem test_seReg : run ((r0.setV 0x1#4 0x07#8).setV 0x2#4 0x07#8) 0x5127 (fun t => t.pc) = some 0x0204#16 := by decide

/-- V-S7. -/
theorem test_sneReg : run ((r0.setV 0x1#4 0x07#8).setV 0x2#4 0x08#8) 0x9120 (fun t => t.pc) = some 0x0204#16 := by decide

/-- V-A1. -/
theorem test_ldImm : run r0 0x6A9C (fun t => t.getV 0xA#4) = some 0x9C#8 := by decide

/-- S9. -/
theorem test_addImm : run ((r0.setV 0x1#4 0xFF#8).setV 0xF#4 0x07#8) 0x7101 (fun t => (t.getV 0x1#4, t.getV 0xF#4)) =
    some (0x00#8, 0x07#8) := by decide

/-- V-A4. -/
theorem test_ldReg : run (r0.setV 0x2#4 0x33#8) 0x8120 (fun t => t.getV 0x1#4) = some 0x33#8 := by decide

/-- V-A5. -/
theorem test_or : run (((r0.setV 0x1#4 0x0F#8).setV 0x2#4 0xF0#8).setV 0xF#4 0x55#8) 0x8121
    (fun t => (t.getV 0x1#4, t.getV 0xF#4)) = some (0xFF#8, 0x00#8) := by decide

/-- V-A8. -/
theorem test_or_vf_kept : run (((withCfg fun c => { c with vfReset := false }).setV 0xF#4 0x0F#8).setV 0x2#4 0xF0#8) 0x8F21
    (fun t => t.getV 0xF#4) = some 0xFF#8 := by decide

/-- V-A9. -/
theorem test_and : run (((r0.setV 0x1#4 0x3C#8).setV 0x2#4 0x0F#8).setV 0xF#4 0x01#8) 0x8122
    (fun t => (t.getV 0x1#4, t.getV 0xF#4)) = some (0x0C#8, 0x00#8) := by decide

/-- V-A10. -/
theorem test_xor : run (r0.setV 0x1#4 0xAA#8) 0x8113 (fun t => (t.getV 0x1#4, t.getV 0xF#4)) =
    some (0x00#8, 0x00#8) := by decide

/-- S3. -/
theorem test_add : run ((r0.setV 0x1#4 0xFF#8).setV 0x2#4 0x01#8) 0x8124 (fun t => (t.getV 0x1#4, t.getV 0xF#4)) =
    some (0x00#8, 0x01#8) := by decide

/-- V-A14. -/
theorem test_add_reads_vf_first : run ((r0.setV 0x1#4 0x10#8).setV 0xF#4 0x05#8) 0x81F4
    (fun t => (t.getV 0x1#4, t.getV 0xF#4)) = some (0x15#8, 0x00#8) := by decide

/-- V-A15. -/
theorem test_sub_equal : run ((r0.setV 0x1#4 0x05#8).setV 0x2#4 0x05#8) 0x8125 (fun t => (t.getV 0x1#4, t.getV 0xF#4)) =
    some (0x00#8, 0x00#8) := by decide

/-- V-A16. -/
theorem test_sub_flag_wins : run ((r0.setV 0xF#4 0x09#8).setV 0x1#4 0x02#8) 0x8F15 (fun t => t.getV 0xF#4) =
    some 0x01#8 := by decide

/-- V-A20. -/
theorem test_shr : run (r0.setV 0x2#4 0xFF#8) 0x8126 (fun t => (t.getV 0x1#4, t.getV 0xF#4, t.getV 0x2#4)) =
    some (0x7F#8, 0x01#8, 0xFF#8) := by decide

/-- V-A21. -/
theorem test_shr_in_place : run (((withCfg fun c => { c with shiftCopy := false }).setV 0x1#4 0x04#8).setV 0x2#4 0xFF#8)
    0x8126 (fun t => (t.getV 0x1#4, t.getV 0xF#4)) = some (0x02#8, 0x00#8) := by decide

/-- V-A17. -/
theorem test_subn : run ((r0.setV 0x1#4 0x03#8).setV 0x2#4 0x05#8) 0x8127 (fun t => (t.getV 0x1#4, t.getV 0xF#4)) =
    some (0x02#8, 0x01#8) := by decide

/-- V-A23. -/
theorem test_shl : run (r0.setV 0x2#4 0x81#8) 0x812E (fun t => (t.getV 0x1#4, t.getV 0xF#4)) =
    some (0x02#8, 0x01#8) := by decide

/-- V-A25. -/
theorem test_shl_in_place : run ((withCfg fun c => { c with shiftCopy := false }).setV 0x1#4 0x81#8) 0x812E
    (fun t => (t.getV 0x1#4, t.getV 0xF#4)) = some (0x02#8, 0x01#8) := by decide

/-- V-K1. -/
theorem test_rnd : runRand r0 0xAB#8 0xC10F (fun t => t.getV 0x1#4) = some 0x0B#8 := by decide

/-- V-K5. -/
theorem test_skp : run (({ r0 with keys := 0x0400#16 } : State).setV 0x5#4 0x1A#8) 0xE59E (fun t => t.pc) =
    some 0x0204#16 := by decide

/-- V-K7. -/
theorem test_sknp : run (({ r0 with keys := 0xFFEF#16 } : State).setV 0x5#4 0x04#8) 0xE5A1 (fun t => t.pc) =
    some 0x0204#16 := by decide

/-- V-K8. -/
theorem test_ldVxDt : run (r0.setDt 0x3C#8) 0xF307 (fun t => t.getV 0x3#4) = some 0x3C#8 := by decide

/-- V-K11, first step: a key held now is not sampled. -/
theorem test_ldVxK : run { r0 with keys := 0x0010#16 } 0xF30A (fun t => (t.wait, t.waitReg, t.pc, t.getV 0x3#4)) =
    some (true, 0x3#4, 0x0202#16, 0x00#8) := by decide

/-- V-K13. -/
theorem test_ldDtVx : run (r0.setV 0x3#4 0x3C#8) 0xF315 (fun t => t.dt) = some 60#8 := by decide

/-- V-K14. -/
theorem test_ldStVx : run (r0.setV 0x3#4 0x01#8) 0xF318 (fun t => (t.st, t.soundOn)) = some (0x01#8, true) := by decide

/-- V-I1. -/
theorem test_ldI : run r0 0xA123 (fun t => t.i) = some 0x0123#16 := by decide

/-- V-I5. -/
theorem test_addI_flag : run (((withCfg fun c => { c with iOverflow := true }).setI 0x0FFE#16).setV 0xF#4 0x03#8) 0xFF1E
    (fun t => (t.i, t.getV 0xF#4)) = some (0x1001#16, 0x01#8) := by decide

/-- V-I6. -/
theorem test_addI_wraps : run ((r0.setI 0xFFFF#16).setV 0x2#4 0x02#8) 0xF21E (fun t => t.i) = some 0x0001#16 := by decide

/-- S10, and V-I7's last. -/
theorem test_ldF : run (r0.setV 0x2#4 0x0A#8) 0xF229 (fun t => t.i) = some 0x0082#16 ∧
    run (r0.setV 0x2#4 0xFF#8) 0xF229 (fun t => t.i) = some 0x054B#16 := by decide

/-- V-I9. -/
theorem test_ldB_wraps : run ((r0.setI 0x0FFF#16).setV 0x2#4 156#8) 0xF233
    (fun t => (t.readByte 0x0FFF#16, t.readByte 0x0000#16, t.readByte 0x0001#16, t.i)) =
    some (0x01#8, 0x05#8, 0x06#8, 0x0FFF#16) := by decide

/-- V-I10. -/
theorem test_stRegs : run (((r0.setI 0x0300#16).setV 0x0#4 0x11#8).setV 0x1#4 0x22#8) 0xF155
    (fun t => (t.readByte 0x0300#16, t.readByte 0x0301#16, t.readByte 0x0302#16, t.i)) =
    some (0x11#8, 0x22#8, 0x00#8, 0x0302#16) := by decide

/-- V-I11. -/
theorem test_stRegs_keeps_i : run ((withCfg fun c => { c with memIncI := false }).setI 0x0300#16) 0xF155 (fun t => t.i) =
    some 0x0300#16 := by decide

/-- V-I14. -/
theorem test_ldRegs : run ((r0.setI 0x0300#16).writeByte 0x0300#16 0x42#8) 0xF065 (fun t => (t.getV 0x0#4, t.i)) =
    some (0x42#8, 0x0301#16) := by decide

/-- V-D5. -/
theorem test_drw_collides : run (((r0.setI 0x0300#16).writeByte 0x0300#16 0x81#8).setDisp (Display.toggle 0#2048 0 0))
    0xD121 (fun t => (t.disp.cell 0 0, t.disp.cell 7 0, t.getV 0xF#4, t.redraw)) =
    some (false, true, 0x01#8, true) := by decide +kernel

/-- V-D10 and V-D11, one row: the cell past the right edge is clipped, or drawn at the left under the wrap option. -/
theorem test_drw_edges :
    run ((((r0.setI 0x0300#16).writeByte 0x0300#16 0xFF#8).setV 0x0#4 60#8).setV 0x1#4 31#8) 0xD012
      (fun t => (t.disp.cell 63 31, t.disp.cell 0 31)) = some (true, false) ∧
    run (((((withCfg fun c => { c with displayWrap := true }).setI 0x0300#16).writeByte 0x0300#16 0xFF#8).setV
      0x0#4 60#8).setV 0x1#4 31#8) 0xD012 (fun t => (t.disp.cell 63 31, t.disp.cell 0 31)) = some (true, true) := by decide +kernel

/-- V-A27, V-X1. -/
theorem test_unknown : run r0 0x8128 (fun t => (t.pc, t.diag)) =
      some (0x0202#16, [{ code := .unknownOpcode, pc := 0x0200#16, opcode := 0x8128#16 }]) ∧
    run r0 0x0123 (fun t => (t.pc, t.diag)) =
      some (0x0202#16, [{ code := .unknownOpcode, pc := 0x0200#16, opcode := 0x0123#16 }]) := by decide

/-- The codes of 60_exceptions.md R122. -/
theorem test_diag_codes : (DiagCode.stackOverflow.number, DiagCode.stackUnderflow.number, DiagCode.unknownOpcode.number) =
    (1, 2, 3) := by decide

/-! ### The host's transactions -/

/-- A state in key-wait for V3, with keys 2 and 7 pressed and the word at 0x020A (S7, P4). -/
def pressed : State :=
  { (r0.setPc 0x020A#16).withFetchWord 16 0x120A with wait := true, waitReg := 0x3#4, keys := 0x0084#16, loadWindow := false }

/-- S7, P4 step 7: the lowest key wins, and the fetch follows in the same call. -/
theorem test_gate_resumes : out (step pressed) (fun t => (t.getV 0x3#4, t.wait, t.pc)) =
    some (0x02#8, false, 0x020A#16) := by decide

/-- V-K10. -/
theorem test_gate_suspends : out (step { pressed with keys := 0x0000#16 }) (fun t => (t.wait, t.pc, t.getV 0x3#4)) =
    some (true, 0x020A#16, 0x00#8) := by decide

/-- V-K14: a tick takes one and saturates. -/
theorem test_tick : out (step { r0 with st := 0x01#8, schedule := [.tick] }) (fun t => (t.st, t.dt, t.soundOn)) =
    some (0x00#8, 0x00#8, false) := by decide

/-- V-X5, and the load the window lets in. -/
theorem test_load : out (step { r0 with schedule := [.load 0x0200#16 0x6A#8] }) (fun t => t.readByte 0x0200#16) =
      some 0x6A#8 ∧
    out (step { r0 with loadWindow := false, schedule := [.load 0x0200#16 0x6A#8] }) (fun t => t.readByte 0x0200#16) =
      some 0x00#8 := by decide

/-- V-X4, one element of each kind: the options are unchanged. -/
theorem test_reset : out (step { (withCfg fun c => { c with iOverflow := true }).setV 0x1#4 0x05#8 with schedule := [.reset] })
    (fun t => (t.getV 0x1#4, t.pc, t.sp.val, t.loadWindow, t.cfg.iOverflow)) = some (0x00#8, 0x0200#16, 0, true, true) := by decide

/-- The default font's glyph "A" at 0x0082 (P3). -/
theorem test_font : [r0.readByte 0x0082#16, r0.readByte 0x0083#16, r0.readByte 0x0084#16, r0.readByte 0x0085#16,
    r0.readByte 0x0086#16] = [0xF0#8, 0x90#8, 0xF0#8, 0x90#8, 0x90#8] := by decide

/-- Memory keeps its canonical form: writing the reset content delists the cell. -/
theorem test_memory_canonical : ((r0.writeByte 0x0300#16 0x42#8).writeByte 0x0300#16 0x00#8).mem = [] ∧
    (r0.writeByte 0x0050#16 0xF0#8).mem = [] := by decide

/-! ### Witnesses: for each statement with hypotheses, a state and operands that meet them together -/

/-- Reset with the word `w` placed, the load window still open, and `ts` scheduled. -/
def scheduled (w : Nat) (ts : List Transaction) : State := { r0.withFetchWord 16 w with schedule := ts }

theorem witness_EncodedInstructionDecodesBack : (Instr.drw 0x1#4 0x2#4 0xF#4).wellFormed = true := by decide

theorem witness_DecodedWordEncodesBack : decodeWord 0x8F2E#16 = .ok (.shl 0xF#4 0x2#4) := by decide

/-- `Encodes` for every row of R55. -/
theorem witness_Encodes : opcodeTable.all (fun r => rowMatches r.2 r) = true ∧ opcodeTable.length = 34 := by decide

theorem witness_StepRunsDecodedInstruction :
    (r0.wait = false ∧ decodeWord (scheduled 0xA123 []).fetchWord = .ok (.ldI 0x123#12) ∧
      (scheduled 0xA123 []).schedule = []) ∧
    ((scheduled 0xC10F [.step none, .tick]).wait = false ∧
      decodeWord (scheduled 0xC10F [.step none, .tick]).fetchWord = .ok (.rnd 0x1#4 0x0F#8) ∧
      (scheduled 0xC10F [.step none, .tick]).schedule = [.step none, .tick]) := by decide

/-- The gate's clauses: no line, scheduled and bare; the least and the greatest line; no key-wait. -/
theorem witness_KeyWaitGateSuspendsOrResumes :
    ({ pressed with keys := 0#16, schedule := [.step none] }.wait = true ∧
      { pressed with keys := 0#16, schedule := [.step none] }.NextIsCycle none []) ∧
    pressed.NextIsCycle none [] ∧
    (pressed.schedule = [] ∧ pressed.rand = none ∧ pressed.wait = true ∧ { pressed with keys := 0#16 }.keys = 0#16) ∧
    ((0x0001#16 : Word).getLsbD 0 = true ∧ ∀ j < 0, (0x0001#16 : Word).getLsbD j = false) ∧
    ((0x8000#16 : Word).getLsbD 15 = true ∧ ∀ j < 15, (0x8000#16 : Word).getLsbD j = false) ∧
    r0.wait = false := by decide

theorem witness_UnknownOpcodeIsReportedAndSkipped :
    (scheduled 0x8128 [.step (some 0xAB#8), .tick]).NextIsCycle (some 0xAB#8) [.tick] ∧
    (scheduled 0x8128 []).NextIsCycle none [] ∧ (scheduled 0x8128 []).wait = false ∧
    knownWord (scheduled 0x8128 []).fetchWord = false := by decide

/-- A tick is no cycle, and a bare cycle presents no byte and leaves nothing. -/
theorem test_NextIsCycle : ¬ (scheduled 0x1200 [.tick]).NextIsCycle none [] ∧
    ¬ (scheduled 0x1200 []).NextIsCycle (some 0xAB#8) [] ∧ ¬ (scheduled 0x1200 []).NextIsCycle none [.tick] := by decide

/-- A state that has run: a byte listed, an event reported, the window closed. -/
def worn : State :=
  { (r0.writeByte 0x0300#16 0x42#8).report .unknownOpcode 0x0200#16 0x8128#16 with
    pc := 0x0202#16, loadWindow := false, schedule := [.tick] }

theorem witness_CycleChangesTimers_dt : ∃ t, step ((scheduled 0xF315 [.step none]).setV 0x3#4 0x3C#8) = .next t ∧
    t.dt ≠ (scheduled 0xF315 [.step none]).dt := ⟨_, rfl, by decide⟩

/-- In a bare cycle. -/
theorem witness_CycleChangesTimers_st : ((scheduled 0xF318 []).setV 0x3#4 0x01#8).NextIsCycle none [] ∧
    ∃ t, step ((scheduled 0xF318 []).setV 0x3#4 0x01#8) = .next t ∧ t.st ≠ (scheduled 0xF318 []).st :=
  ⟨by decide, _, rfl, by decide⟩

/-- Another transaction, and the reset. -/
theorem witness_CycleChangesTimers_others :
    (∃ t, { worn with schedule := [.redrawAck] }.schedule = .redrawAck :: [] ∧
      step { worn with schedule := [.redrawAck] } = .next t) ∧
    (∃ t, { worn with schedule := [.reset] }.schedule = .reset :: [] ∧
      step { worn with schedule := [.reset] } = .next t) :=
  ⟨⟨_, rfl, rfl⟩, ⟨_, rfl, rfl⟩⟩

/-- The idle loop of V-C10. -/
theorem witness_JumpToItselfIsIdle :
    let s := { scheduled 0x1200 [] with loadWindow := false }
    s.schedule = [] ∧ s.wait = false ∧ s.rand = none ∧ s.loadWindow = false ∧
      s.pc = (0x200#12 : Addr).zeroExtend 16 ∧ decodeWord s.fetchWord = .ok (.jp 0x200#12) := by decide

theorem witness_CycleAppendsAtMostOneEvent : (scheduled 0x8128 []).NextIsCycle none [] ∧
    ∃ t, step (scheduled 0x8128 []) = .next t ∧ t.diag.length = 1 := ⟨by decide, _, rfl, by decide⟩

theorem witness_RedrawIsSticky : ((scheduled 0x00E0 []).setDisp twoCells).NextIsCycle none [] ∧
    ∃ t, step ((scheduled 0x00E0 []).setDisp twoCells) = .next t ∧ t.disp ≠ twoCells :=
  ⟨by decide, _, rfl, by decide +kernel⟩

theorem witness_StepTakesOneTransaction : ∃ t, step (scheduled 0x1200 [.tick, .step none]) = .next t :=
  ⟨_, rfl⟩

theorem witness_EveryStepKeepsTheInvariant : worn.Inv ∧ ∃ t, step worn = .next t :=
  ⟨by decide +kernel, _, rfl⟩

/-- The invariant rules something out: each of its clauses fails somewhere. -/
theorem witness_invariant_is_not_empty : ¬ { worn with mem := [(0x300, 0x00#8)] }.Inv ∧
    ¬ (worn.report .unknownOpcode 0x0200#16 0x1200#16).Inv ∧ ¬ { worn with loadWindow := true }.Inv := by decide +kernel

theorem witness_OutputsInfluenceNothing : worn.blind = { worn with st := 0x05#8, redraw := true, diag := [] }.blind ∧
    worn.diag ≠ [] := ⟨rfl, by decide⟩

theorem witness_ResetInitialisesEveryElement : { worn with schedule := [.reset] }.schedule = .reset :: [] ∧
    ((0x004F#16 : Word).toNat < 0x050) ∧ (0x0A0 ≤ (0x00A0#16 : Word).toNat ∧ (0x00A0#16 : Word).toNat < 4096) ∧
    (0x0A0 ≤ (0x0FFF#16 : Word).toNat ∧ (0x0FFF#16 : Word).toNat < 4096) := by decide

theorem witness_ResetTwiceIsResetOnce : { worn with schedule := [.reset, .reset] }.schedule = .reset :: .reset :: [] := by
  decide

theorem witness_TickDecrementsNonzeroTimers : worn.schedule = .tick :: [] := by decide

/-- The last address with a cell in the window, the first without one, and a closed window. -/
theorem witness_LoadWritesOnlyInTheWindow :
    (scheduled 0 [.load 0x0FFF#16 0x01#8]).schedule = .load 0x0FFF#16 0x01#8 :: [] ∧
    (scheduled 0 [.load 0x0FFF#16 0x01#8]).loadWindow = true ∧ (0x0FFF#16 : Word).toNat < 4096 ∧
    4096 ≤ (0x1000#16 : Word).toNat ∧ worn.loadWindow = false := by decide

theorem witness_FirstCycleClosesTheLoadWindow : (scheduled 0x1200 []).NextIsCycle none [] ∧
    (scheduled 0x1200 []).wait = false ∧ (scheduled 0x1200 []).loadWindow = true ∧
    ∃ t, step (scheduled 0x1200 []) = .next t := ⟨by decide, by decide, by decide, _, rfl⟩

theorem witness_KeysInAndRedrawAck : { worn with schedule := [.keysIn 0x0084#16] }.schedule = .keysIn 0x0084#16 :: [] ∧
    { worn with schedule := [.redrawAck] }.schedule = .redrawAck :: [] := by decide

/-- The stack's boundaries: empty and not, full and not. -/
theorem witness_RetPops_CallPushes : r0.sp.val = 0 ∧ ({ r0 with sp := 16 } : State).sp.val ≠ 0 ∧
    ({ r0 with sp := 15 } : State).sp.val < 16 ∧ ({ r0 with sp := 16 } : State).sp.val = 16 := by decide

theorem witness_CallThenRetComesBack : ({ r0 with sp := 15 } : State).sp.val < 16 := by decide

theorem witness_Shifts : ∃ src, src = (if r0.cfg.shiftCopy = true then (r0.getV 0x2#4).toNat else (r0.getV 0x1#4).toNat) :=
  ⟨_, rfl⟩

theorem witness_RndMasksTheRandomByte : (r0.presentRand (some 0xAB#8)).rand = some 0xAB#8 ∧ r0.rand = none := by decide

/-- I set back after the store, every byte as the store left it. -/
theorem witness_BlockStoreThenLoad : ∃ t u : State, exec (.stRegs 0xF#4) (r0.setI 0x0FF8#16) = .next t ∧
    u.i = (r0.setI 0x0FF8#16).i ∧ ∀ a, u.readByte a = t.readByte a :=
  ⟨_, State.setI _ 0x0FF8#16, rfl, rfl, fun _ => rfl⟩

/-- The stored register lies on the high and on the low byte of the next word. -/
theorem witness_NextFetchSeesTheBlockStore : (0x1#4 : RegIx).toNat ≤ (0x1#4 : RegIx).toNat ∧
    ea ((r0.setI 0x01FF#16).i + BitVec.ofNat 16 (0x1#4 : RegIx).toNat) = ea r0.pc ∧
    ea ((r0.setI 0x0200#16).i + BitVec.ofNat 16 (0x1#4 : RegIx).toNat) = ea (r0.pc + 1#16) := by decide

/-- A loaded program about to run FX29 on the last digit, the font in its cells. -/
theorem witness_GlyphLookupReachesTheFont :
    let s := (scheduled 0xF229 []).setV 0x2#4 0x0F#8
    s.mem ≠ [] ∧ decodeWord s.fetchWord = .ok (.ldF 0x2#4) ∧
      (∀ m : Fin 80, s.readByte (0x0050#16 + BitVec.ofNat 16 m.val) = s.cfg.font[m.val]) ∧
      (s.getV 0x2#4).toNat = (15 : Fin 16).val := by decide +kernel

theorem witness_DrawTwiceRestoresTheDisplay : (0x0#4 : RegIx) ≠ 0xF#4 ∧ (0xE#4 : RegIx) ≠ 0xF#4 := by decide

/-- A sprite of two rows at (60, 30): a cell left of it, one below it, and no cell 8 columns to its right. -/
theorem witness_ClippedDrawStaysInItsRectangle : r0.cfg.displayWrap = false ∧
    59 < ((r0.setV 0x0#4 60#8).getV 0x0#4).toNat % 64 ∧
    ((r0.setV 0x1#4 28#8).getV 0x1#4).toNat % 32 + (2#4 : Nibble).toNat ≤ 30 := by decide

end Tests
end Sys2Proof
end

/-! What each instruction, and then a cycle, may write (10_state.md R32; 40_cycle.md R63-R68). The access matrix
`Instr.writes` is tied to `exec` once; a cycle's effect on one element follows from it. -/

namespace Sys2Proof
namespace Machine

/-- What two updates one after the other may write. -/
theorem Unchanged.append {ws vs : List Element} {s t u : State} (h1 : Unchanged ws s t) (h2 : Unchanged vs t u) :
    Unchanged (ws ++ vs) s u := by
  intro e he
  obtain ⟨hws, hvs⟩ := not_or.1 (mt List.mem_append.2 he)
  exact Element.same_trans (h1 e hws) (h2 e hvs)

theorem execRet_unchanged (ign : Nibble) (s : State) :
    ∃ t, execRet ign s = .next t ∧ Unchanged [.pc, .sp, .diag] s t := by
  unfold execRet
  cases hp : s.pop with
  | none => exact ⟨_, rfl, ((Unchanged.setPc s _).append (Unchanged.report _ _ _ _)).mono (by simp)⟩
  | some p =>
    obtain ⟨w, u⟩ := p
    obtain ⟨-, -, hu⟩ := State.pop_eq_some hp
    exact ⟨_, rfl, (hu.append (Unchanged.setPc u w)).mono (by simp)⟩

theorem execCall_unchanged (nnn : Addr) (s : State) :
    ∃ t, execCall nnn s = .next t ∧ Unchanged [.pc, .stack, .sp, .diag] s t := by
  unfold execCall
  cases hp : s.push s.pc with
  | none => exact ⟨_, rfl, (Unchanged.report s _ _ _).mono (by simp)⟩
  | some u =>
    obtain ⟨-, -, -, hu⟩ := State.push_eq_some hp
    exact ⟨_, rfl, (hu.append (Unchanged.setPc u _)).mono (by simp)⟩

theorem execAddI_unchanged (x : RegIx) (s : State) :
    ∃ t, execAddI x s = .next t ∧ Unchanged (if s.cfg.iOverflow then [.i, .v] else [.i]) s t := by
  refine ⟨_, rfl, ?_⟩
  split
  · exact (Unchanged.setI s _).append (Unchanged.setVF _ _)
  · exact Unchanged.setI s _

/-- A block transfer that writes `e` and then bumps I under `Q_MEM_INC_I`. -/
theorem Unchanged.transferThenBump {e : Element} {s t : State} (h : Unchanged [e] s t) (he : e ≠ .cfg) (x : RegIx) :
    Unchanged (if s.cfg.memIncI then [e, .i] else [e]) s (t.bumpI x) := by
  have hcfg : t.cfg = s.cfg := h .cfg (by simpa using he.symm)
  have hboth := h.append (Unchanged.bumpI t x)
  rw [hcfg] at hboth
  cases hq : s.cfg.memIncI <;> simpa [hq] using hboth

/-- The access matrix of 10_state.md R32 holds of `exec`: every instruction completes, and writes at most its row. -/
theorem exec_unchanged (i : Instr) (s : State) : ∃ t, exec i s = .next t ∧ Unchanged (i.writes s.cfg) s t := by
  cases i with
  | cls _ => exact ⟨_, rfl, (Unchanged.setDisp s _).append (Unchanged.setRedraw _ _)⟩
  | ret ign => exact execRet_unchanged ign s
  | jp _ | jpV0 _ => exact ⟨_, rfl, Unchanged.setPc s _⟩
  | call nnn => exact execCall_unchanged nnn s
  | seImm _ _ | sneImm _ _ | seReg _ _ _ | sneReg _ _ _ | skp _ | sknp _ => exact ⟨_, rfl, Unchanged.skipIf s _⟩
  | ldImm _ _ | addImm _ _ | ldReg _ _ | ldVxDt _ => exact ⟨_, rfl, Unchanged.setV s _ _⟩
  | orReg _ _ | andReg _ _ | xorReg _ _ => exact ⟨_, rfl, Unchanged.setVThenReset s _ _⟩
  | addReg _ _ | sub _ _ | shr _ _ | subn _ _ | shl _ _ => exact ⟨_, rfl, Unchanged.setVThenFlag s _ _ _⟩
  | ldI _ | ldF _ => exact ⟨_, rfl, Unchanged.setI s _⟩
  | rnd _ _ => exact ⟨_, rfl, (Unchanged.setV s _ _).append (Unchanged.takeRand _)⟩
  | drw _ _ _ =>
    exact ⟨_, rfl, (((Unchanged.setDisp s _).append (Unchanged.setVF _ _)).append (Unchanged.setRedraw _ _)).mono
      (by simp [Instr.writes])⟩
  | ldVxK _ => exact ⟨_, rfl, Unchanged.enterWait s _⟩
  | ldDtVx _ => exact ⟨_, rfl, Unchanged.setDt s _⟩
  | ldStVx _ => exact ⟨_, rfl, Unchanged.setSt s _⟩
  | addI x => exact execAddI_unchanged x s
  | ldB _ =>
    exact ⟨_, rfl, ((Unchanged.writeByte s _ _).trans (Unchanged.writeByte _ _ _)).trans (Unchanged.writeByte _ _ _)⟩
  | stRegs x => exact ⟨_, rfl, (State.storeRegsFrom_unchanged _ 0 s).transferThenBump (by decide) x⟩
  | ldRegs x => exact ⟨_, rfl, (State.loadRegsFrom_unchanged _ 0 s).transferThenBump (by decide) x⟩

/-- An element an instruction changes stands in its row of the access matrix. -/
theorem mem_writes_of_exec_changed {i : Instr} {s t : State} {e : Element} (h : exec i s = .next t)
    (hc : ¬ e.same s t) : e ∈ i.writes s.cfg := by
  obtain ⟨u, hu, hsame⟩ := exec_unchanged i s
  obtain rfl := Host.Outcome.next.inj (h.symm.trans hu)
  exact not_imp_comm.1 (hsame e) hc

/-- What a cycle writes besides the instruction's own row: the transaction taken and its byte, the exit from key-wait,
the fetch, and the report of an unknown opcode. -/
def cycleElements : List Element := [.v, .pc, .wait, .diag, .rand, .loadWindow, .schedule]

/-- An element outside `cycleElements` is changed after the gate only by the fetched instruction's row. -/
theorem State.fetchAndRun_changed {s t : State} {e : Element} (h : s.fetchAndRun = .next t) (he : e ∉ cycleElements)
    (hc : ¬ e.same s t) : ∃ i, decodeWord s.fetchWord = .ok i ∧ e ∈ i.writes s.cfg := by
  have hadv : e.same s s.advance := (Unchanged.advance s).mono (by simp [cycleElements]) e he
  rcases State.fetchAndRun_cases h with ⟨i, hd, hx⟩ | ⟨_, _, rfl⟩
  · exact ⟨i, hd, mem_writes_of_exec_changed (s := s.advance) hx fun ht => hc (Element.same_trans hadv ht)⟩
  · exact absurd (Element.same_trans hadv ((Unchanged.report _ _ _ _).mono (by simp [cycleElements]) e he)) hc

theorem State.cycle_changed {s t : State} {e : Element} (h : s.cycle = .next t) (he : e ∉ cycleElements)
    (hc : ¬ e.same s t) : ∃ i, decodeWord s.fetchWord = .ok i ∧ e ∈ i.writes s.cfg := by
  rcases State.cycle_cases h with ⟨rfl, _, _⟩ | ⟨_, hf⟩ | ⟨k, _, _, hf⟩
  · exact absurd (Element.same_refl _ e) hc
  · exact State.fetchAndRun_changed hf he hc
  · have hleave : e.same s (s.leaveWait k) := (Unchanged.leaveWait s k).mono (by simp [cycleElements]) e he
    exact State.fetchAndRun_changed (s := s.leaveWait k) hf he fun ht => hc (Element.same_trans hleave ht)

/-- Taking a cycle's transaction off the schedule and presenting its byte writes nothing else. -/
theorem Unchanged.presentCycle (s : State) (r : Option Byte) (rest : List Transaction) :
    Unchanged [.schedule, .rand] s (({ s with schedule := rest } : State).presentRand r) := by
  intro e he
  cases e with
  | schedule | rand => simp at he
  | v | mem => exact fun _ => rfl
  | _ => rfl

/-- A step that is a cycle, scheduled or bare, changes an element outside `cycleElements` only by an instruction whose row
of the access matrix lists it. -/
theorem step_changed_of_cycle {s t : State} {r : Option Byte} {rest : List Transaction} {e : Element}
    (hs : s.NextIsCycle r rest) (h : step s = .next t) (he : e ∉ cycleElements) (hc : ¬ e.same s t) :
    ∃ i, decodeWord s.fetchWord = .ok i ∧ e ∈ i.writes s.cfg := by
  rw [step_of_cycle hs] at h
  have hpre := (Unchanged.presentCycle s r rest).mono (by simp [cycleElements]) e he
  exact State.cycle_changed (s := ({ s with schedule := rest } : State).presentRand r) h he fun ht =>
    hc (Element.same_trans hpre ht)

/-- Only the row of FX15 lists DT. -/
theorem eq_ldDtVx_of_dt_mem_writes {c : Config.Options} {i : Instr} (h : .dt ∈ i.writes c) : ∃ x, i = .ldDtVx x := by
  cases i with
  | ldDtVx x => exact ⟨x, rfl⟩
  | addI _ | stRegs _ | ldRegs _ => exact absurd h (Element.notMem_ite (by decide) (by decide))
  | _ => simp [Instr.writes] at h

/-- Only the row of FX18 lists ST. -/
theorem eq_ldStVx_of_st_mem_writes {c : Config.Options} {i : Instr} (h : .st ∈ i.writes c) : ∃ x, i = .ldStVx x := by
  cases i with
  | ldStVx x => exact ⟨x, rfl⟩
  | addI _ | stRegs _ | ldRegs _ => exact absurd h (Element.notMem_ite (by decide) (by decide))
  | _ => simp [Instr.writes] at h

theorem cycle_changes_dt_only_by_ldDtVx {s t : State} {r : Option Byte} {rest : List Transaction}
    (hs : s.NextIsCycle r rest) (h : step s = .next t) (hdt : t.dt ≠ s.dt) :
    ∃ x, decodeWord s.fetchWord = .ok (.ldDtVx x) := by
  obtain ⟨i, hd, hw⟩ := step_changed_of_cycle (e := .dt) hs h (by decide) hdt
  obtain ⟨x, rfl⟩ := eq_ldDtVx_of_dt_mem_writes hw
  exact ⟨x, hd⟩

theorem cycle_changes_st_only_by_ldStVx {s t : State} {r : Option Byte} {rest : List Transaction}
    (hs : s.NextIsCycle r rest) (h : step s = .next t) (hst : t.st ≠ s.st) :
    ∃ x, decodeWord s.fetchWord = .ok (.ldStVx x) := by
  obtain ⟨i, hd, hw⟩ := step_changed_of_cycle (e := .st) hs h (by decide) hst
  obtain ⟨x, rfl⟩ := eq_ldStVx_of_st_mem_writes hw
  exact ⟨x, hd⟩

/-- The timers after a transaction that is neither a cycle nor a tick: 0 after a reset, else as they were. -/
theorem timers_of_other_transaction {s t : State} {tr : Transaction} {rest : List Transaction}
    (hs : s.schedule = tr :: rest) (hstep : ∀ r, tr ≠ .step r) (htick : tr ≠ .tick) (h : step s = .next t) :
    if tr = .reset then t.dt = 0x00#8 ∧ t.st = 0x00#8 else t.dt = s.dt ∧ t.st = s.st := by
  cases tr with
  | step r => exact absurd rfl (hstep r)
  | tick => exact absurd rfl htick
  | reset =>
    obtain rfl := Host.Outcome.next.inj ((step_of_reset hs).symm.trans h)
    simp [State.applyReset, State.resetWith]
  | load a b =>
    obtain rfl := Host.Outcome.next.inj ((step_of_load hs).symm.trans h)
    simp
  | keysIn lines =>
    obtain rfl := Host.Outcome.next.inj ((step_of_keysIn hs).symm.trans h)
    simp
  | redrawAck =>
    obtain rfl := Host.Outcome.next.inj ((step_of_redrawAck hs).symm.trans h)
    simp

/-- Settles O10: a cycle changes an element only by an instruction whose row of the access matrix lists it, and DT and ST
stand in one row each; the other transactions are checked one by one. -/
theorem cycleChangesTimersOnlyByTheirWrites : Obligations.CycleChangesTimersOnlyByTheirWrites :=
  ⟨fun _ _ _ _ hs h => ⟨cycle_changes_dt_only_by_ldDtVx hs h, cycle_changes_st_only_by_ldStVx hs h⟩,
    fun _ _ _ _ hs hstep htick h => timers_of_other_transaction hs hstep htick h⟩

end Machine
end Sys2Proof

/-! Display clear and the absolute jump (41_display_control.md R75, R77). -/

namespace Sys2Proof
namespace Machine

@[simp] theorem Display.cell_zero (x y : Nat) : Display.cell 0#2048 x y = false := BitVec.getLsbD_zero

/-- NNN has 12 bits, so widening it to PC's 16 keeps its value. -/
@[simp] theorem toNat_addrOperand (nnn : Addr) : (addrOperand nnn).toNat = nnn.toNat :=
  BitVec.toNat_setWidth_of_le (by decide)

theorem exec_cls (ign : Nibble) (s : State) : exec (.cls ign) s = .next ((s.setDisp 0#2048).setRedraw true) := rfl

theorem exec_jp (nnn : Addr) (s : State) : exec (.jp nnn) s = .next (s.setPc (addrOperand nnn)) := rfl

/-- Settles O27: the display CLS writes is 0, in which every cell is off; the frame is that of its two updates. -/
theorem clsClearsEveryCellAndRaisesRedraw : Obligations.ClsClearsEveryCellAndRaisesRedraw := by
  intro ign s
  refine ⟨_, exec_cls ign s, ?cells, State.setRedraw_redraw _ _, ?frame⟩
  case cells => exact fun x y _ _ => Display.cell_zero x y
  case frame => exact (Unchanged.setDisp s _).append (Unchanged.setRedraw _ _)

/-- Settles O29: JP's one update is PC, with the widened operand. -/
theorem jpSetsPc : Obligations.JpSetsPc :=
  fun nnn s => ⟨_, exec_jp nnn s, toNat_addrOperand nnn, Unchanged.setPc s _⟩

end Machine
end Sys2Proof

/-! The immediate load, the immediate add and the register copy (43_alu.md R85, R86, R88): each is one register write. -/

namespace Sys2Proof
namespace Machine

theorem State.getV_setV_self (s : State) (x : RegIx) (b : Byte) : (s.setV x b).getV x = b := by
  rw [State.getV_setV, if_pos rfl]

theorem RegsUnchanged.setV (s : State) (x : RegIx) (b : Byte) : RegsUnchanged [x] s (s.setV x b) := fun r hr => by
  rw [State.getV_setV, if_neg (mt List.mem_singleton.2 hr)]

theorem exec_ldImm (x : RegIx) (nn : Byte) (s : State) : exec (.ldImm x nn) s = .next (s.setV x nn) := rfl

theorem exec_addImm (x : RegIx) (nn : Byte) (s : State) :
    exec (.addImm x nn) s = .next (s.setV x (s.getV x + nn)) := rfl

theorem exec_ldReg (x y : RegIx) (s : State) : exec (.ldReg x y) s = .next (s.setV x (s.getV y)) := rfl

/-- An instruction that only writes `b` to VX: what VX then reads, and the frame. -/
theorem writes_one_register {i : Instr} {s : State} {x : RegIx} {b : Byte} (h : exec i s = .next (s.setV x b)) :
    ∃ t, exec i s = .next t ∧ t.getV x = b ∧ RegsUnchanged [x] s t ∧ Unchanged [.v] s t :=
  ⟨_, h, State.getV_setV_self s x b, RegsUnchanged.setV s x b, Unchanged.setV s x b⟩

/-- Settles O36: each form is one register write; of bytes, the sum written by 7XNN is the sum modulo 256. -/
theorem loadsAndAddImmediateWriteOneRegister : Obligations.LoadsAndAddImmediateWriteOneRegister := by
  intro x y nn s
  refine ⟨writes_one_register (exec_ldImm x nn s), ?sum, writes_one_register (exec_ldReg x y s)⟩
  case sum =>
    obtain ⟨t, ht, hx, hframe⟩ := writes_one_register (exec_addImm x nn s)
    exact ⟨t, ht, by rw [hx]; exact BitVec.toNat_add _ _, hframe⟩

end Machine
end Sys2Proof

/-! The timer transfers (44_rand_keys_timers.md R101, R103, R104): FX07 is one register write, FX15 and FX18 one timer
write. -/

namespace Sys2Proof
namespace Machine

theorem exec_ldVxDt (x : RegIx) (s : State) : exec (.ldVxDt x) s = .next (s.setV x s.dt) := rfl

theorem exec_ldDtVx (x : RegIx) (s : State) : exec (.ldDtVx x) s = .next (s.setDt (s.getV x)) := rfl

theorem exec_ldStVx (x : RegIx) (s : State) : exec (.ldStVx x) s = .next (s.setSt (s.getV x)) := rfl

/-- Settles O42: FX07 writes one register, with DT as it stands; FX15 and FX18 each update one timer with VX. -/
theorem timerTransfersMoveTheByte : Obligations.TimerTransfersMoveTheByte := by
  intro x s
  refine ⟨writes_one_register (exec_ldVxDt x s), ?writeDt, ?writeSt⟩
  case writeDt => exact ⟨_, exec_ldDtVx x s, State.setDt_dt s _, Unchanged.setDt s _⟩
  case writeSt => exact ⟨_, exec_ldStVx x s, State.setSt_st s _, Unchanged.setSt s _⟩

end Machine
end Sys2Proof

/-! The encoding (30_encoding.md R51-R62). A word is its fields put together, so `encode` and `decodeWord` are inverse
to each other; a word in a row of the map decodes to the row's instruction with the word's fields; and no word stands
in two rows. -/

namespace Sys2Proof

/-! ### Decoding an encoded instruction -/

theorem decodeWord_encode (i : Instr) : decodeWord (encode i) = .ok i := by
  cases i with
  | jp _ | call _ | ldI _ | jpV0 _ => simp [encode, decodeWord, fieldF_formatA, fieldNNN_formatA]
  | seImm _ _ | sneImm _ _ | ldImm _ _ | addImm _ _ | rnd _ _ =>
    simp [encode, decodeWord, fieldF_formatB, fieldX_formatB, fieldNN_formatB]
  | seReg _ _ _ | sneReg _ _ _ | drw _ _ _ =>
    simp [encode, decodeWord, fieldF_formatC, fieldX_formatC, fieldY_formatC, fieldN_formatC]
  | cls _ | ret _ => simp [encode, decodeWord, decodeFamily0, fieldF_formatB, fieldX_formatB, fieldNN_formatB]
  | skp _ | sknp _ => simp [encode, decodeWord, decodeFamilyE, fieldF_formatB, fieldX_formatB, fieldNN_formatB]
  | ldVxDt _ | ldVxK _ | ldDtVx _ | ldStVx _ | addI _ | ldF _ | ldB _ | stRegs _ | ldRegs _ =>
    simp [encode, decodeWord, decodeFamilyF, fieldF_formatB, fieldX_formatB, fieldNN_formatB]
  | ldReg _ _ | orReg _ _ | andReg _ _ | xorReg _ _ | addReg _ _ | sub _ _ | shr _ _ | subn _ _ | shl _ _ =>
    simp [encode, decodeWord, decodeFamily8, fieldF_formatC, fieldX_formatC, fieldY_formatC, fieldN_formatC]

theorem decodeBytes_encodeBytes_append (i : Instr) (rest : List Byte) :
    decodeBytes (encodeBytes i ++ rest) = .ok (i, rest) := by
  simp only [encodeBytes, List.cons_append, List.nil_append, decodeBytes, composeWord_bytes, decodeWord_encode]

/-- Settles O1: on each format the field readers give back what the encoder put there, so every instruction's word
decodes to it; its two bytes compose to that word. -/
theorem encodedInstructionDecodesBack : Obligations.EncodedInstructionDecodesBack :=
  fun i rest _ => ⟨decodeWord_encode i, decodeBytes_encodeBytes_append i rest⟩

/-! ### Encoding a decoded word -/

section Refit
variable {op : Word} {f n : Nibble} {nn : Byte}

theorem eq_formatA (hF : (fieldF op).toNat = f.toNat) : f ++ fieldNNN op = op := by
  apply BitVec.eq_of_toNat_eq
  rw [toNat_append_eq, ← hF, fieldF_toNat, fieldNNN_toNat]; omega

theorem eq_formatB (hF : (fieldF op).toNat = f.toNat) : f ++ fieldX op ++ fieldNN op = op := by
  apply BitVec.eq_of_toNat_eq
  rw [toNat_append_eq, toNat_append_eq, ← hF, fieldF_toNat, fieldX_toNat, fieldNN_toNat]; omega

theorem eq_formatC (hF : (fieldF op).toNat = f.toNat) : f ++ fieldX op ++ fieldY op ++ fieldN op = op := by
  apply BitVec.eq_of_toNat_eq
  rw [toNat_formatC, ← hF, fieldF_toNat, fieldX_toNat, fieldY_toNat, fieldN_toNat]; omega

/-- A row selected by the family and the low byte. -/
theorem eq_lowByte (hF : (fieldF op).toNat = f.toNat) (hNN : (fieldNN op).toNat = nn.toNat) :
    f ++ fieldX op ++ nn = op := by
  rw [← BitVec.eq_of_toNat_eq hNN]; exact eq_formatB hF

/-- A row selected by the family and the low nibble. -/
theorem eq_lowNibble (hF : (fieldF op).toNat = f.toNat) (hN : (fieldN op).toNat = n.toNat) :
    f ++ fieldX op ++ fieldY op ++ n = op := by
  rw [← BitVec.eq_of_toNat_eq hN]; exact eq_formatC hF

end Refit

theorem encode_of_decodeFamily0 {op : Word} {i : Instr} (hF : (fieldF op).toNat = (0x0#4).toNat)
    (h : decodeFamily0 op = .ok i) : encode i = op := by
  unfold decodeFamily0 at h
  split at h <;> cases h <;> exact eq_lowByte hF ‹_›

theorem encode_of_decodeFamily8 {op : Word} {i : Instr} (hF : (fieldF op).toNat = (0x8#4).toNat)
    (h : decodeFamily8 op = .ok i) : encode i = op := by
  unfold decodeFamily8 at h
  split at h <;> cases h <;> exact eq_lowNibble hF ‹_›

theorem encode_of_decodeFamilyE {op : Word} {i : Instr} (hF : (fieldF op).toNat = (0xE#4).toNat)
    (h : decodeFamilyE op = .ok i) : encode i = op := by
  unfold decodeFamilyE at h
  split at h <;> cases h <;> exact eq_lowByte hF ‹_›

theorem encode_of_decodeFamilyF {op : Word} {i : Instr} (hF : (fieldF op).toNat = (0xF#4).toNat)
    (h : decodeFamilyF op = .ok i) : encode i = op := by
  unfold decodeFamilyF at h
  split at h <;> cases h <;> exact eq_lowByte hF ‹_›

theorem encode_of_decodeWord {op : Word} {i : Instr} (h : decodeWord op = .ok i) : encode i = op := by
  unfold decodeWord at h
  split at h
  case h_1 hF => exact encode_of_decodeFamily0 hF h
  case h_9 hF => exact encode_of_decodeFamily8 hF h
  case h_15 hF => exact encode_of_decodeFamilyE hF h
  case h_16 =>
    have hF : (fieldF op).toNat = 15 := by
      have := (fieldF op).isLt
      simp only [imp_false] at *; omega
    exact encode_of_decodeFamilyF hF h
  case h_2 hF | h_3 hF | h_11 hF | h_12 hF => cases h; exact eq_formatA hF
  case h_4 hF | h_5 hF | h_7 hF | h_8 hF | h_13 hF => cases h; exact eq_formatB hF
  case h_6 hF | h_10 hF | h_14 hF => cases h; exact eq_formatC hF

/-- Settles O2: the fields an arm of the decoder reads, put together with the family that selected the arm, are the
word. -/
theorem decodedWordEncodesBack : Obligations.DecodedWordEncodesBack := fun _ _ h => encode_of_decodeWord h

/-! ### The words of a row -/

/-- The instruction of the same row whose fields are those of `op`. -/
def Instr.refill (op : Word) : Instr → Instr
  | .cls _ => .cls (fieldX op)
  | .ret _ => .ret (fieldX op)
  | .jp _ => .jp (fieldNNN op)
  | .call _ => .call (fieldNNN op)
  | .seImm _ _ => .seImm (fieldX op) (fieldNN op)
  | .sneImm _ _ => .sneImm (fieldX op) (fieldNN op)
  | .seReg _ _ _ => .seReg (fieldX op) (fieldY op) (fieldN op)
  | .ldImm _ _ => .ldImm (fieldX op) (fieldNN op)
  | .addImm _ _ => .addImm (fieldX op) (fieldNN op)
  | .ldReg _ _ => .ldReg (fieldX op) (fieldY op)
  | .orReg _ _ => .orReg (fieldX op) (fieldY op)
  | .andReg _ _ => .andReg (fieldX op) (fieldY op)
  | .xorReg _ _ => .xorReg (fieldX op) (fieldY op)
  | .addReg _ _ => .addReg (fieldX op) (fieldY op)
  | .sub _ _ => .sub (fieldX op) (fieldY op)
  | .shr _ _ => .shr (fieldX op) (fieldY op)
  | .subn _ _ => .subn (fieldX op) (fieldY op)
  | .shl _ _ => .shl (fieldX op) (fieldY op)
  | .sneReg _ _ _ => .sneReg (fieldX op) (fieldY op) (fieldN op)
  | .ldI _ => .ldI (fieldNNN op)
  | .jpV0 _ => .jpV0 (fieldNNN op)
  | .rnd _ _ => .rnd (fieldX op) (fieldNN op)
  | .drw _ _ _ => .drw (fieldX op) (fieldY op) (fieldN op)
  | .skp _ => .skp (fieldX op)
  | .sknp _ => .sknp (fieldX op)
  | .ldVxDt _ => .ldVxDt (fieldX op)
  | .ldVxK _ => .ldVxK (fieldX op)
  | .ldDtVx _ => .ldDtVx (fieldX op)
  | .ldStVx _ => .ldStVx (fieldX op)
  | .addI _ => .addI (fieldX op)
  | .ldF _ => .ldF (fieldX op)
  | .ldB _ => .ldB (fieldX op)
  | .stRegs _ => .stRegs (fieldX op)
  | .ldRegs _ => .ldRegs (fieldX op)

section Masks
variable {op : Word} {f n : Nibble} {nn : Byte}

theorem fieldF_of_mask_F000 (h : op &&& 0xF000#16 = f ++ 0#12) : (fieldF op).toNat = f.toNat := by
  rw [← fieldF_formatA f 0#12, ← h, fieldF, fieldF, BitVec.extractLsb'_and]
  exact congrArg BitVec.toNat BitVec.and_allOnes.symm

theorem fieldF_of_mask_F0FF (h : op &&& 0xF0FF#16 = f ++ 0#4 ++ nn) : (fieldF op).toNat = f.toNat := by
  rw [← fieldF_formatB f 0#4 nn, ← h, fieldF, fieldF, BitVec.extractLsb'_and]
  exact congrArg BitVec.toNat BitVec.and_allOnes.symm

theorem fieldNN_of_mask_F0FF (h : op &&& 0xF0FF#16 = f ++ 0#4 ++ nn) : (fieldNN op).toNat = nn.toNat := by
  rw [← fieldNN_formatB f 0#4 nn, ← h, fieldNN, fieldNN, BitVec.extractLsb'_and]
  exact congrArg BitVec.toNat BitVec.and_allOnes.symm

theorem fieldF_of_mask_F00F (h : op &&& 0xF00F#16 = f ++ 0#4 ++ 0#4 ++ n) : (fieldF op).toNat = f.toNat := by
  rw [← fieldF_formatC f 0#4 0#4 n, ← h, fieldF, fieldF, BitVec.extractLsb'_and]
  exact congrArg BitVec.toNat BitVec.and_allOnes.symm

theorem fieldN_of_mask_F00F (h : op &&& 0xF00F#16 = f ++ 0#4 ++ 0#4 ++ n) : (fieldN op).toNat = n.toNat := by
  rw [← fieldN_formatC f 0#4 0#4 n, ← h, fieldN, fieldN, BitVec.extractLsb'_and]
  exact congrArg BitVec.toNat BitVec.and_allOnes.symm

theorem eq_of_mask_F0FF (h : op &&& 0xF0FF#16 = f ++ 0#4 ++ nn) : f ++ fieldX op ++ nn = op :=
  eq_lowByte (fieldF_of_mask_F0FF h) (fieldNN_of_mask_F0FF h)

theorem eq_of_mask_F00F (h : op &&& 0xF00F#16 = f ++ 0#4 ++ 0#4 ++ n) : f ++ fieldX op ++ fieldY op ++ n = op :=
  eq_lowNibble (fieldF_of_mask_F00F h) (fieldN_of_mask_F00F h)

end Masks

/-- A word of an instruction's row is the encoding of the row's instruction with the word's fields. -/
theorem encode_refill {op : Word} (i : Instr) (h : op &&& i.row.1 = i.row.2) : encode (i.refill op) = op := by
  cases i with
  | jp _ | call _ | ldI _ | jpV0 _ => exact eq_formatA (fieldF_of_mask_F000 h)
  | seImm _ _ | sneImm _ _ | ldImm _ _ | addImm _ _ | rnd _ _ => exact eq_formatB (fieldF_of_mask_F000 h)
  | seReg _ _ _ | sneReg _ _ _ | drw _ _ _ => exact eq_formatC (fieldF_of_mask_F000 h)
  | cls _ | ret _ | skp _ | sknp _ | ldVxDt _ | ldVxK _ | ldDtVx _ | ldStVx _ | addI _ | ldF _ | ldB _ | stRegs _
  | ldRegs _ => exact eq_of_mask_F0FF h
  | ldReg _ _ | orReg _ _ | andReg _ _ | xorReg _ _ | addReg _ _ | sub _ _ | shr _ _ | subn _ _ | shl _ _ =>
    exact eq_of_mask_F00F h

/-- The Encoding line of an instruction's rule: every word of its row decodes to it with the word's fields. -/
theorem encodes_row (i : Instr) : Machine.Encodes i.row.1 i.row.2 fun op => i.refill op := by
  intro op h
  conv_lhs => rw [← encode_refill i h]
  exact decodeWord_encode _

/-- Settles O55: the Encoding lines of eight of the 34 rows. -/
theorem plainRowsDecodeWithTheirFields : Obligations.PlainRowsDecodeWithTheirFields :=
  ⟨encodes_row (.cls 0), encodes_row (.jp 0), encodes_row (.ldImm 0 0), encodes_row (.addImm 0 0),
    encodes_row (.ldReg 0 0), encodes_row (.ldVxDt 0), encodes_row (.ldDtVx 0), encodes_row (.ldStVx 0)⟩

/-- Settles O5: the decoder evaluated on each word. -/
theorem writtenOutWordsDecode : Obligations.WrittenOutWordsDecode :=
  ⟨rfl, rfl, rfl, rfl, rfl, rfl, rfl, rfl, rfl, rfl, rfl, rfl, rfl, rfl, rfl, rfl, rfl, rfl⟩

/-! ### Exactly one row, or none -/

/-- An instruction of each row, in the table's order. -/
def rowInstrs : List Instr :=
  [.cls 0, .ret 0, .jp 0, .call 0, .seImm 0 0, .sneImm 0 0, .seReg 0 0 0, .ldImm 0 0, .addImm 0 0, .ldReg 0 0,
    .orReg 0 0, .andReg 0 0, .xorReg 0 0, .addReg 0 0, .sub 0 0, .shr 0 0, .subn 0 0, .shl 0 0, .sneReg 0 0 0, .ldI 0,
    .jpV0 0, .rnd 0 0, .drw 0 0 0, .skp 0, .sknp 0, .ldVxDt 0, .ldVxK 0, .ldDtVx 0, .ldStVx 0, .addI 0, .ldF 0, .ldB 0,
    .stRegs 0, .ldRegs 0]

theorem opcodeTable_eq_map_row : opcodeTable = rowInstrs.map Instr.row := rfl

theorem exists_row_eq {r : Row} (h : r ∈ opcodeTable) : ∃ i : Instr, i.row = r := by
  rw [opcodeTable_eq_map_row] at h
  obtain ⟨i, -, hi⟩ := List.mem_map.1 h
  exact ⟨i, hi⟩

/-- A word that matches a row of the map decodes. -/
theorem decodes_of_rowMatches {op : Word} {r : Row} (hr : r ∈ opcodeTable) (h : rowMatches op r = true) :
    ∃ i, decodeWord op = .ok i := by
  obtain ⟨i, rfl⟩ := exists_row_eq hr
  exact ⟨_, encodes_row i op (beq_iff_eq.1 h)⟩

/-- Where the masks of two rows overlap, their values differ. -/
theorem opcodeTable_disjoint : opcodeTable.Pairwise fun r q => r.2 &&& q.1 ≠ q.2 &&& r.1 := by decide

theorem not_rowMatches_both {op : Word} {r q : Row} (h : r.2 &&& q.1 ≠ q.2 &&& r.1) :
    ¬ (rowMatches op r = true ∧ rowMatches op q = true) := by
  rintro ⟨hr, hq⟩
  rw [rowMatches, beq_iff_eq] at hr hq
  exact h (by rw [← hr, ← hq]; ac_rfl)

/-- In a list of which no two members satisfy `p`, the one that does is all that is left by the filter. -/
theorem filter_eq_singleton {α : Type} {p : α → Bool} {l : List α} {a : α}
    (h : l.Pairwise fun b c => ¬ (p b = true ∧ p c = true)) (ha : a ∈ l) (hp : p a = true) : l.filter p = [a] := by
  induction l with
  | nil => cases ha
  | cons b l ih =>
    obtain ⟨hb, hl⟩ := List.pairwise_cons.1 h
    rcases List.mem_cons.1 ha with rfl | ha
    · rw [List.filter_cons_of_pos hp, List.filter_eq_nil_iff.2 fun c hc hpc => hb c hc ⟨hp, hpc⟩]
    · rw [List.filter_cons_of_neg fun hpb => hb a ha ⟨hpb, hp⟩, ih hl ha]

theorem encodeRow (i : Instr) : Laws.EncodeRow.Statement i :=
  match i with
  | .cls _ => Laws.EncodeRow.cls _
  | .ret _ => Laws.EncodeRow.ret _
  | .jp _ => Laws.EncodeRow.jp _
  | .call _ => Laws.EncodeRow.call _
  | .seImm _ _ => Laws.EncodeRow.seImm _ _
  | .sneImm _ _ => Laws.EncodeRow.sneImm _ _
  | .seReg _ _ _ => Laws.EncodeRow.seReg _ _ _
  | .ldImm _ _ => Laws.EncodeRow.ldImm _ _
  | .addImm _ _ => Laws.EncodeRow.addImm _ _
  | .ldReg _ _ => Laws.EncodeRow.ldReg _ _
  | .orReg _ _ => Laws.EncodeRow.orReg _ _
  | .andReg _ _ => Laws.EncodeRow.andReg _ _
  | .xorReg _ _ => Laws.EncodeRow.xorReg _ _
  | .addReg _ _ => Laws.EncodeRow.addReg _ _
  | .sub _ _ => Laws.EncodeRow.sub _ _
  | .shr _ _ => Laws.EncodeRow.shr _ _
  | .subn _ _ => Laws.EncodeRow.subn _ _
  | .shl _ _ => Laws.EncodeRow.shl _ _
  | .sneReg _ _ _ => Laws.EncodeRow.sneReg _ _ _
  | .ldI _ => Laws.EncodeRow.ldI _
  | .jpV0 _ => Laws.EncodeRow.jpV0 _
  | .rnd _ _ => Laws.EncodeRow.rnd _ _
  | .drw _ _ _ => Laws.EncodeRow.drw _ _ _
  | .skp _ => Laws.EncodeRow.skp _
  | .sknp _ => Laws.EncodeRow.sknp _
  | .ldVxDt _ => Laws.EncodeRow.ldVxDt _
  | .ldVxK _ => Laws.EncodeRow.ldVxK _
  | .ldDtVx _ => Laws.EncodeRow.ldDtVx _
  | .ldStVx _ => Laws.EncodeRow.ldStVx _
  | .addI _ => Laws.EncodeRow.addI _
  | .ldF _ => Laws.EncodeRow.ldF _
  | .ldB _ => Laws.EncodeRow.ldB _
  | .stRegs _ => Laws.EncodeRow.stRegs _
  | .ldRegs _ => Laws.EncodeRow.ldRegs _

theorem rowsMatched_of_decode_ok {op : Word} {i : Instr} (h : decodeWord op = .ok i) :
    opcodeTable.filter (rowMatches op) = [i.row] := by
  obtain ⟨hmatch, hmem⟩ := encodeRow i
  rw [encode_of_decodeWord h] at hmatch
  exact filter_eq_singleton (opcodeTable_disjoint.imp fun hrq => not_rowMatches_both hrq) hmem hmatch

theorem rowsMatched_of_decode_error {op : Word} {e : Reject} (h : decodeWord op = .error e) :
    opcodeTable.filter (rowMatches op) = [] := by
  refine List.filter_eq_nil_iff.2 fun r hr hm => ?_
  obtain ⟨i, hi⟩ := decodes_of_rowMatches hr hm
  cases hi.symm.trans h

/-- Settles O3: the word of a decoded instruction matches its row, and no word matches two rows; a word that matches a
row is not rejected. -/
theorem everyWordHasOneRowOrIsUnknown : Obligations.EveryWordHasOneRowOrIsUnknown := by
  intro op
  split
  case h_1 i h => exact rowsMatched_of_decode_ok h
  case h_2 e h => exact rowsMatched_of_decode_error h

/-! ### The table of unknown encodings -/

theorem decodeFamily0_error_iff (op : Word) :
    (∃ e, decodeFamily0 op = .error e) ↔ (fieldNN op == 0xE0#8 || fieldNN op == 0xEE#8) = false := by
  unfold decodeFamily0
  split <;> simp_all [← BitVec.toNat_inj]

theorem decodeFamily8_error_iff (op : Word) :
    (∃ e, decodeFamily8 op = .error e) ↔
      (!(fieldN op == 0x8#4 || fieldN op == 0x9#4 || fieldN op == 0xA#4 || fieldN op == 0xB#4 || fieldN op == 0xC#4 ||
        fieldN op == 0xD#4 || fieldN op == 0xF#4)) = false := by
  have hN : (fieldN op).toNat < 16 := (fieldN op).isLt
  unfold decodeFamily8
  split
  case h_10 => simp only [imp_false] at *; simp [← BitVec.toNat_inj]; omega
  all_goals simp_all [← BitVec.toNat_inj]

theorem decodeFamilyE_error_iff (op : Word) :
    (∃ e, decodeFamilyE op = .error e) ↔ (fieldNN op == 0x9E#8 || fieldNN op == 0xA1#8) = false := by
  unfold decodeFamilyE
  split <;> simp_all [← BitVec.toNat_inj]

theorem decodeFamilyF_error_iff (op : Word) :
    (∃ e, decodeFamilyF op = .error e) ↔
      (fieldNN op == 0x07#8 || fieldNN op == 0x0A#8 || fieldNN op == 0x15#8 || fieldNN op == 0x18#8 ||
        fieldNN op == 0x1E#8 || fieldNN op == 0x29#8 || fieldNN op == 0x33#8 || fieldNN op == 0x55#8 ||
        fieldNN op == 0x65#8) = false := by
  unfold decodeFamilyF
  split <;> simp_all [← BitVec.toNat_inj]

/-- Settles O4: four families have unknown words, and in each the arms of the decoder and the line of the table select
on the same nibble or byte. -/
theorem unknownWordsAreTheTabulatedOnes : Obligations.UnknownWordsAreTheTabulatedOnes := by
  intro op
  have h0 := decodeFamily0_error_iff op
  have h8 := decodeFamily8_error_iff op
  have hE := decodeFamilyE_error_iff op
  have hF := decodeFamilyF_error_iff op
  have hlt : (op.extractLsb' 12 4).toNat < 16 := (op.extractLsb' 12 4).isLt
  unfold decodeWord knownWord fieldF
  generalize (op.extractLsb' 12 4).toNat = k at hlt ⊢
  match k, hlt with
  | 0, _ => exact h0
  | 8, _ => exact h8
  | 14, _ => exact hE
  | 15, _ => exact hF
  | 1, _ | 2, _ | 3, _ | 4, _ | 5, _ | 6, _ | 7, _ | 9, _ | 10, _ | 11, _ | 12, _ | 13, _ => simp
  | k + 16, h => omega

end Sys2Proof

/-! The frames of the 34 instructions: elements, registers and bytes (10_state.md R32, R13; 20_memory.md R43). -/

namespace Sys2Proof
namespace Machine

variable {i : Instr} {s t : State}

/-! ### RET and CALL by what the stack does -/

theorem execRet_of_pop_eq_none {ign : Nibble} (h : s.pop = none) :
    execRet ign s =
      .next ((s.setPc Config.underflowSentinel).report .stackUnderflow s.instrAddr (encode (.ret ign))) := by
  unfold execRet; rw [h]

theorem execRet_of_pop_eq_some {ign : Nibble} {p : Word × State} (h : s.pop = some p) :
    execRet ign s = .next (p.2.setPc p.1) := by
  unfold execRet; rw [h]

theorem execCall_of_push_eq_none {nnn : Addr} (h : s.push s.pc = none) :
    execCall nnn s = .next (s.report .stackOverflow s.instrAddr (encode (.call nnn))) := by
  unfold execCall; rw [h]

theorem execCall_of_push_eq_some {nnn : Addr} (h : s.push s.pc = some t) :
    execCall nnn s = .next (t.setPc (addrOperand nnn)) := by
  unfold execCall; rw [h]

/-! ### Elements -/

/-- Settles O24: the access matrix holds of `exec`. -/
theorem instructionsWriteOnlyTheirElements : Obligations.InstructionsWriteOnlyTheirElements := exec_unchanged

/-- An element outside an instruction's row of the access matrix is left as it was. -/
theorem exec_same {e : Element} (h : exec i s = .next t) (he : e ∉ i.writes s.cfg) : e.same s t :=
  not_imp_comm.1 (mem_writes_of_exec_changed h) he

/-- The elements that stand in some row of the access matrix. The inputs, the options and the schedule do not. -/
def instrElements : List Element :=
  [.v, .pc, .i, .stack, .sp, .dt, .st, .mem, .disp, .redraw, .wait, .waitReg, .diag, .randCount]

theorem writes_subset_instrElements (c : Config.Options) (i : Instr) : i.writes c ⊆ instrElements := by
  cases i with
  | addI _ | stRegs _ | ldRegs _ => simp only [Instr.writes]; split <;> simp [instrElements]
  | _ => simp [Instr.writes, instrElements]

/-- No instruction writes an element outside every row. -/
theorem exec_same_of_notMem {e : Element} (h : exec i s = .next t) (he : e ∉ instrElements) : e.same s t :=
  exec_same h fun hw => he (writes_subset_instrElements _ _ hw)

/-! ### Registers -/

theorem RegsUnchanged.of_unchanged {ws : List Element} (h : Unchanged ws s t) (hv : .v ∉ ws) (rs : List RegIx) :
    RegsUnchanged rs s t := fun r _ => h .v hv r

theorem RegsUnchanged.setVThenFlag (s : State) (x : RegIx) (b : Byte) (f : Bool) :
    RegsUnchanged [x, vf] s (s.setVThenFlag x b f) := by
  intro r hr
  simp only [List.mem_cons, List.not_mem_nil, or_false, not_or] at hr
  rw [State.getV_setVThenFlag, if_neg hr.2, if_neg hr.1]

theorem RegsUnchanged.setVThenReset (s : State) (x : RegIx) (b : Byte) :
    RegsUnchanged (if s.cfg.vfReset then [x, vf] else [x]) s (s.setVThenReset x b) := by
  unfold State.setVThenReset
  split
  · exact RegsUnchanged.setVThenFlag s x b false
  · exact RegsUnchanged.setV s x b

theorem RegsUnchanged.loadRegs (s : State) (x : RegIx) :
    RegsUnchanged ((List.range (x.toNat + 1)).map (BitVec.ofNat 4)) s (s.loadRegsFrom 0 (x.toNat + 1)) := by
  refine fun r hr => State.loadRegsFrom_other _ _ _ _ fun j _ hj hrj => hr ?_
  exact List.mem_map.2 ⟨j, List.mem_range.2 (by omega), hrj.symm⟩

theorem execAddI_regsUnchanged (x : RegIx) (s : State) :
    ∃ t, execAddI x s = .next t ∧ RegsUnchanged (if s.cfg.iOverflow then [vf] else []) s t := by
  refine ⟨_, rfl, ?_⟩
  split
  · exact RegsUnchanged.setV (s.setI _) vf _
  · exact fun _ _ => rfl

theorem exec_regsUnchanged (i : Instr) (s : State) :
    ∃ t, exec i s = .next t ∧ RegsUnchanged (i.regWrites s.cfg) s t := by
  cases i with
  | ldImm _ _ | addImm _ _ | ldReg _ _ | ldVxDt _ | rnd _ _ => exact ⟨_, rfl, RegsUnchanged.setV s _ _⟩
  | orReg _ _ | andReg _ _ | xorReg _ _ => exact ⟨_, rfl, RegsUnchanged.setVThenReset s _ _⟩
  | addReg _ _ | sub _ _ | shr _ _ | subn _ _ | shl _ _ => exact ⟨_, rfl, RegsUnchanged.setVThenFlag s _ _ _⟩
  | addI x => exact execAddI_regsUnchanged x s
  | drw _ _ _ => exact ⟨_, rfl, RegsUnchanged.setV (s.setDisp _) vf _⟩
  | ldRegs x => exact ⟨_, rfl, fun r hr => (State.getV_bumpI _ x r).trans (RegsUnchanged.loadRegs s x r hr)⟩
  | stRegs x =>
    obtain ⟨t, ht, hu⟩ := exec_unchanged (.stRegs x) s
    exact ⟨t, ht, .of_unchanged hu (Element.notMem_ite (by decide) (by decide)) _⟩
  | _ =>
    obtain ⟨t, ht, hu⟩ := exec_unchanged _ s
    exact ⟨t, ht, .of_unchanged hu (by simp [Instr.writes]) _⟩

/-- Settles O25: the registers each register-writing form sets; the other forms' rows of the access matrix do not list
V. -/
theorem instructionsWriteOnlyTheirRegisters : Obligations.InstructionsWriteOnlyTheirRegisters := exec_regsUnchanged

/-! ### Bytes -/

theorem BytesUnchanged.of_unchanged {ws : List Element} (h : Unchanged ws s t) (hm : .mem ∉ ws) (as : List Addr) :
    BytesUnchanged as s t := fun a _ => h .mem hm a

theorem BytesUnchanged.writeByte (s : State) (a : Word) (b : Byte) : BytesUnchanged [ea a] s (s.writeByte a b) :=
  fun c hc => by rw [State.readByte_writeByte, if_neg (mt List.mem_singleton.2 hc)]

theorem BytesUnchanged.append {as bs : List Addr} {s t u : State} (h1 : BytesUnchanged as s t)
    (h2 : BytesUnchanged bs t u) : BytesUnchanged (as ++ bs) s u := by
  intro a ha
  obtain ⟨has, hbs⟩ := not_or.1 (mt List.mem_append.2 ha)
  exact (h2 a hbs).trans (h1 a has)

/-- The cells of a block store. -/
theorem BytesUnchanged.storeRegs (s : State) (n : Nat) : BytesUnchanged (s.cellsFromI n) s (s.storeRegsFrom 0 n) := by
  refine fun a ha => State.storeRegsFrom_other _ _ _ _ fun j _ hj haj => ha ?_
  exact List.mem_map.2 ⟨j, List.mem_range.2 (by omega), haj.symm⟩

theorem exec_bytesUnchanged (i : Instr) (s : State) :
    ∃ t, exec i s = .next t ∧ BytesUnchanged (i.stores s) s t := by
  cases i with
  | ldB _ =>
    exact ⟨_, rfl, ((BytesUnchanged.writeByte s _ _).append (BytesUnchanged.writeByte _ _ _)).append
      (BytesUnchanged.writeByte _ _ _)⟩
  | stRegs x =>
    exact ⟨_, rfl, fun a ha => (State.readByte_bumpI _ x a).trans (BytesUnchanged.storeRegs s _ a ha)⟩
  | addI _ | ldRegs _ =>
    obtain ⟨t, ht, hu⟩ := exec_unchanged _ s
    exact ⟨t, ht, .of_unchanged hu (Element.notMem_ite (by decide) (by decide)) _⟩
  | _ =>
    obtain ⟨t, ht, hu⟩ := exec_unchanged _ s
    exact ⟨t, ht, .of_unchanged hu (by simp [Instr.writes]) _⟩

/-- Settles O26: the cells FX33 and FX55 write; the other rows of the access matrix do not list MEM. -/
theorem instructionsStoreOnlyTheirBytes : Obligations.InstructionsStoreOnlyTheirBytes := exec_bytesUnchanged

end Machine
end Sys2Proof

/-! The cycle and the step (40_cycle.md R63-R72): every step gives a next state, and what a cycle does to the channel,
REDRAW and the load window is what the fetched instruction does, or the report of an unknown opcode. -/

namespace Sys2Proof
namespace Machine

variable {i : Instr} {s t : State} {r : Option Byte} {rest : List Transaction}

/-! ### Every step answers -/

theorem State.fetchAndRun_next (s : State) : ∃ t, s.fetchAndRun = .next t := by
  unfold State.fetchAndRun
  split
  case h_1 i _ =>
    obtain ⟨t, ht, _⟩ := exec_unchanged i s.advance
    exact ⟨t, ht⟩
  case h_2 => exact ⟨_, rfl⟩

theorem State.cycle_next (s : State) : ∃ t, s.cycle = .next t := by
  unfold State.cycle
  split
  · exact ⟨_, rfl⟩
  · exact State.fetchAndRun_next _

theorem State.transact_next (s : State) (tr : Transaction) : ∃ t, s.transact tr = .next t := by
  cases tr with
  | step r => exact State.cycle_next _
  | reset | load _ _ | keysIn _ | tick | redrawAck => exact ⟨_, rfl⟩

theorem step_next (s : State) : ∃ t, step s = .next t := State.transact_next _ _

theorem coreRun_succ (M : Host.Core) {s t : M.State} (h : M.step s = .next t) (k : Nat) :
    M.run (k + 1) s = M.run k t := by
  simp only [Host.Core.run, h]

/-- Settles O9: by induction on the number of steps, each of which gives a next state. -/
theorem everyRunContinues : Obligations.EveryRunContinues := by
  intro k
  induction k with
  | zero => exact fun s => ⟨s, rfl⟩
  | succ k ih =>
    intro s
    obtain ⟨t, ht⟩ := step_next s
    obtain ⟨u, hu⟩ := ih t
    exact ⟨u, (coreRun_succ Sys2Proof.core ht k).trans hu⟩

/-! ### The gate and the fetch -/

theorem State.presentRand_self (h : s.rand = r) : s.presentRand r = s := by subst h; rfl

/-- Settles O6: outside key-wait a cycle is the fetch, and a word that decodes is executed. -/
theorem stepRunsDecodedInstruction : Obligations.StepRunsDecodedInstruction := by
  intro s i hw hd
  refine ⟨fun hs => ?bare, fun r rest hs => ?scheduled⟩
  case bare =>
    rw [step_of_empty hs, State.cycle_idle (s := s.presentRand none) hw,
      State.fetchAndRun_ok (s := s.presentRand none) hd]
    rfl
  case scheduled =>
    rw [step_of_step hs, State.cycle_idle (s := State.presentRand { s with schedule := rest } r) hw,
      State.fetchAndRun_ok (s := State.presentRand { s with schedule := rest } r) hd]
    rfl

/-- A waiting cycle with no line pressed. -/
theorem step_suspended (hs : s.NextIsCycle r rest) (hw : s.wait = true) (hk : s.keys = 0#16) :
    step s = .next (State.presentRand { s with schedule := rest } r) := by
  rw [step_of_cycle hs]; exact State.cycle_suspended hw hk

/-- A waiting cycle with a line pressed is the cycle of the state that has left key-wait. -/
theorem step_pressed {k : Nat} (hs : s.NextIsCycle r rest) (hw : s.wait = true) (hk : leastPressed s.keys = some k) :
    step s = step (s.leaveWait k) := by
  rw [step_of_cycle hs, step_of_cycle (s := s.leaveWait k) hs,
    State.cycle_pressed (s := State.presentRand { s with schedule := rest } r) hw hk]
  exact (State.cycle_idle (s := State.presentRand { s.leaveWait k with schedule := rest } r) rfl).symm

/-- Settles O7: the three ways of the gate. -/
theorem keyWaitGateSuspendsOrResumes : Obligations.KeyWaitGateSuspendsOrResumes := by
  refine ⟨fun s r rest hs hw hk => step_suspended hs hw hk, fun s hs hr hw hk => ?bareSuspended,
    fun s k r rest hs hw hk16 hk hleast => step_pressed hs hw (leastPressed_eq_some.2 ⟨hk16, hk, hleast⟩),
    fun s hw => State.gate_idle hw⟩
  case bareSuspended =>
    rw [step_of_empty hs, State.presentRand_self hr, State.cycle_suspended hw hk]

/-- Settles O8: a word of the table does not decode, so the fetch reports it. -/
theorem unknownOpcodeIsReportedAndSkipped : Obligations.UnknownOpcodeIsReportedAndSkipped := by
  intro s r rest hs hw hknown
  obtain ⟨e, he⟩ := (unknownWordsAreTheTabulatedOnes s.fetchWord).2 hknown
  let u := State.presentRand { s with schedule := rest } r
  have hstep : step s = .next (u.advance.report .unknownOpcode u.pc u.fetchWord) := by
    rw [step_of_cycle hs, State.cycle_idle (s := u) hw, State.fetchAndRun_error (s := u) he]
  refine ⟨_, hstep, rfl, rfl, rfl, rfl, rfl, ?frame⟩
  case frame =>
    exact (((Unchanged.presentCycle s r rest).append (Unchanged.advance u)).append
      (Unchanged.report _ _ _ _)).mono (by simp)

/-- Settles O11: the jump writes the PC it stood at. -/
theorem jumpToItselfIsIdle : Obligations.JumpToItselfIsIdle := by
  intro s nnn hs hw hr hl hpc hd
  rw [step_of_empty hs, State.presentRand_self hr, State.cycle_idle hw, State.fetchAndRun_ok hd, exec_jp]
  have hback : { s with pc := addrOperand nnn, loadWindow := false } = s := by
    rw [addrOperand, ← hpc, ← hl]
  exact congrArg _ hback

/-! ### What a cycle does to one element -/

/-- The two ways of a cycle: suspended in key-wait, or a fetch from a state that differs from `s` by the transaction
taken and by the key-wait exit. -/
theorem step_cycle_cases (hs : s.NextIsCycle r rest) (h : step s = .next t) :
    (s.wait = true ∧ t = State.presentRand { s with schedule := rest } r) ∨
    ∃ u : State, Unchanged [.v, .wait, .schedule, .rand] s u ∧ u.mem = s.mem ∧ u.fetchWord = s.fetchWord ∧
      u.fetchAndRun = .next t := by
  have hpre := Unchanged.presentCycle s r rest
  rw [step_of_cycle hs] at h
  rcases State.cycle_cases h with ⟨rfl, hw, _⟩ | ⟨_, hf⟩ | ⟨k, _, _, hf⟩
  · exact .inl ⟨hw, rfl⟩
  · exact .inr ⟨_, hpre.mono (by simp), rfl, rfl, hf⟩
  · exact .inr ⟨_, (hpre.append (Unchanged.leaveWait _ k)).mono (by simp), rfl, rfl, hf⟩

/-- The load window is closed once a cycle has fetched. -/
theorem State.fetchAndRun_loadWindow (h : s.fetchAndRun = .next t) : t.loadWindow = false := by
  rcases State.fetchAndRun_cases h with ⟨i, _, hx⟩ | ⟨_, _, rfl⟩
  · exact exec_same_of_notMem (e := .loadWindow) hx (by decide)
  · rfl

/-- Settles O22: outside key-wait a cycle fetches. -/
theorem firstCycleClosesTheLoadWindow : Obligations.FirstCycleClosesTheLoadWindow := by
  intro s t r rest hs hw h
  rcases step_cycle_cases hs h with ⟨hw', _⟩ | ⟨u, _, _, _, hf⟩
  · rw [hw] at hw'; cases hw'
  · exact State.fetchAndRun_loadWindow hf

/-! ### The diagnostic channel -/

/-- What one step may do to the channel: leave it, or append one legal event with the address `a` and the word `op`. -/
def AppendsAtMost (a op : Word) (s t : State) : Prop :=
  t.diag = s.diag ∨ ∃ e : DiagEvent, t.diag = s.diag ++ [e] ∧ e.pc = a ∧ e.opcode = op ∧ e.legit

theorem AppendsAtMost.report {c : DiagCode} {a op : Word} (s : State) (h : DiagEvent.legit ⟨c, a, op⟩) :
    AppendsAtMost a op s (s.report c a op) := .inr ⟨_, rfl, rfl, rfl, h⟩

theorem legit_stackOverflow (a : Word) (nnn : Addr) : DiagEvent.legit ⟨.stackOverflow, a, encode (.call nnn)⟩ :=
  ⟨fun _ => beq_iff_eq.1 (encodeRow (.call nnn)).1, nofun, nofun⟩

theorem legit_stackUnderflow (a : Word) (ign : Nibble) :
    DiagEvent.legit ⟨.stackUnderflow, a, encode (.ret ign)⟩ :=
  ⟨nofun, fun _ => beq_iff_eq.1 (encodeRow (.ret ign)).1, nofun⟩

theorem legit_unknownOpcode {op : Word} {e : Reject} (a : Word) (h : decodeWord op = .error e) :
    DiagEvent.legit ⟨.unknownOpcode, a, op⟩ :=
  ⟨nofun, nofun, fun _ => (unknownWordsAreTheTabulatedOnes op).1 ⟨e, h⟩⟩

theorem execRet_appends {ign : Nibble} (h : execRet ign s = .next t) :
    AppendsAtMost s.instrAddr (encode (.ret ign)) s t := by
  cases hp : s.pop with
  | none =>
    rw [execRet_of_pop_eq_none hp] at h; cases h
    exact AppendsAtMost.report (s.setPc _) (legit_stackUnderflow _ ign)
  | some p =>
    obtain ⟨-, -, hu⟩ := State.pop_eq_some hp
    rw [execRet_of_pop_eq_some hp] at h; cases h
    exact .inl (hu .diag (by decide))

theorem execCall_appends {nnn : Addr} (h : execCall nnn s = .next t) :
    AppendsAtMost s.instrAddr (encode (.call nnn)) s t := by
  cases hp : s.push s.pc with
  | none =>
    rw [execCall_of_push_eq_none hp] at h; cases h
    exact AppendsAtMost.report s (legit_stackOverflow _ nnn)
  | some u =>
    obtain ⟨-, -, -, hu⟩ := State.push_eq_some hp
    rw [execCall_of_push_eq_some hp] at h; cases h
    exact .inl (hu .diag (by decide))

/-- Only RET and CALL report, at the instruction's address and with its word. -/
theorem exec_appends (h : exec i s = .next t) : AppendsAtMost s.instrAddr (encode i) s t := by
  cases i with
  | ret _ => exact execRet_appends h
  | call _ => exact execCall_appends h
  | addI _ | stRegs _ | ldRegs _ =>
    exact .inl (exec_same (e := .diag) h (Element.notMem_ite (by decide) (by decide)))
  | _ => exact .inl (exec_same (e := .diag) h (by simp [Instr.writes]))

/-- While an instruction executes, PC is its address plus 2. -/
theorem State.instrAddr_advance (s : State) : s.advance.instrAddr = s.pc := BitVec.add_sub_cancel _ _

theorem State.fetchAndRun_appends (h : s.fetchAndRun = .next t) : AppendsAtMost s.pc s.fetchWord s t := by
  rcases State.fetchAndRun_cases h with ⟨i, hd, hx⟩ | ⟨e, he, rfl⟩
  · rw [← State.instrAddr_advance, ← encode_of_decodeWord hd]; exact exec_appends hx
  · exact AppendsAtMost.report s.advance (legit_unknownOpcode _ he)

/-- Settles O12: a suspended cycle reports nothing, and a fetch at most once. -/
theorem cycleAppendsAtMostOneEvent : Obligations.CycleAppendsAtMostOneEvent := by
  intro s t r rest hs h
  rcases step_cycle_cases hs h with ⟨_, rfl⟩ | ⟨u, hu, _, hword, hf⟩
  · exact .inl rfl
  · have hdiag : u.diag = s.diag := hu .diag (by decide)
    have hpc : u.pc = s.pc := hu .pc (by decide)
    have happ := State.fetchAndRun_appends hf
    rw [AppendsAtMost, hdiag, hpc, hword] at happ
    exact happ.imp_right fun ⟨e, ht, he, hop, _⟩ => ⟨e, ht, he, hop⟩

/-! ### REDRAW -/

/-- What one step may do to the display: leave it and REDRAW, or raise REDRAW. -/
def RaisesOrKeepsDisplay (s t : State) : Prop := t.redraw = true ∨ t.redraw = s.redraw ∧ t.disp = s.disp

/-- CLS and DRW raise REDRAW; no other row lists it or the display. -/
theorem exec_raisesOrKeepsDisplay (h : exec i s = .next t) : RaisesOrKeepsDisplay s t := by
  have hkeep (hr : .redraw ∉ i.writes s.cfg) (hd : .disp ∉ i.writes s.cfg) : RaisesOrKeepsDisplay s t :=
    .inr ⟨exec_same (e := .redraw) h hr, exec_same (e := .disp) h hd⟩
  cases i with
  | cls _ | drw _ _ _ => cases h; exact .inl rfl
  | addI _ | stRegs _ | ldRegs _ =>
    exact hkeep (Element.notMem_ite (by decide) (by decide)) (Element.notMem_ite (by decide) (by decide))
  | _ => exact hkeep (by simp [Instr.writes]) (by simp [Instr.writes])

theorem State.fetchAndRun_raisesOrKeepsDisplay (h : s.fetchAndRun = .next t) : RaisesOrKeepsDisplay s t := by
  rcases State.fetchAndRun_cases h with ⟨i, _, hx⟩ | ⟨_, _, rfl⟩
  · exact exec_raisesOrKeepsDisplay (s := s.advance) hx
  · exact .inr ⟨rfl, rfl⟩

/-- Settles O13: a cycle raises REDRAW or leaves it and the display. -/
theorem redrawIsStickyAndFollowsEveryDisplayChange : Obligations.RedrawIsStickyAndFollowsEveryDisplayChange := by
  intro s t r rest hs h
  have hcase : RaisesOrKeepsDisplay s t := by
    rcases step_cycle_cases hs h with ⟨_, rfl⟩ | ⟨u, hu, _, _, hf⟩
    · exact .inr ⟨rfl, rfl⟩
    · have hredraw : u.redraw = s.redraw := hu .redraw (by decide)
      have hdisp : u.disp = s.disp := hu .disp (by decide)
      rw [RaisesOrKeepsDisplay, ← hredraw, ← hdisp]
      exact State.fetchAndRun_raisesOrKeepsDisplay hf
  rcases hcase with hraised | ⟨hredraw, hdisp⟩
  · exact ⟨fun _ => hraised, fun _ => hraised⟩
  · exact ⟨fun hr => hredraw.trans hr, fun hd => absurd hdisp hd⟩

/-! ### The schedule and the options -/

/-- What a cycle may write at all: the rows of the access matrix and the load window. -/
theorem State.cycle_same {e : Element} (h : s.cycle = .next t) (he : e ∉ .loadWindow :: instrElements) :
    e.same s t := by
  obtain ⟨hwindow, hrows⟩ := not_or.1 (mt List.mem_cons.2 he)
  have hfetch {u : State} (hf : u.fetchAndRun = .next t) : e.same u t := by
    have hadv : e.same u u.advance := (Unchanged.advance u).mono (by simp [instrElements]) e he
    rcases State.fetchAndRun_cases hf with ⟨i, _, hx⟩ | ⟨_, _, rfl⟩
    · exact Element.same_trans hadv (exec_same_of_notMem hx hrows)
    · exact Element.same_trans hadv ((Unchanged.report _ _ _ _).mono (by simp [instrElements]) e hrows)
  rcases State.cycle_cases h with ⟨rfl, _, _⟩ | ⟨_, hf⟩ | ⟨k, _, _, hf⟩
  · exact Element.same_refl _ e
  · exact hfetch hf
  · exact Element.same_trans ((Unchanged.leaveWait s k).mono (by simp [instrElements]) e hrows) (hfetch hf)

/-- No transaction touches the rest of the schedule or the options. -/
theorem State.transact_keeps {tr : Transaction} (h : s.transact tr = .next t) :
    t.schedule = s.schedule ∧ t.cfg = s.cfg := by
  cases tr with
  | step r =>
    exact ⟨State.cycle_same (e := .schedule) (s := s.presentRand r) h (by decide),
      State.cycle_same (e := .cfg) (s := s.presentRand r) h (by decide)⟩
  | load a b => cases h; exact ⟨State.applyLoad_schedule s a b, State.applyLoad_cfg s a b⟩
  | reset | keysIn _ | tick | redrawAck => cases h; exact ⟨rfl, rfl⟩

theorem State.nextTransaction_schedule (s : State) : s.nextTransaction.2.schedule = s.schedule.tail := by
  unfold State.nextTransaction; cases h : s.schedule <;> simp [h]

theorem State.nextTransaction_cfg (s : State) : s.nextTransaction.2.cfg = s.cfg := by
  unfold State.nextTransaction; cases s.schedule <;> rfl

/-- Settles O14: the transaction is taken off the schedule, and what it does keeps the rest and the options. -/
theorem stepTakesOneTransactionAndKeepsOptions : Obligations.StepTakesOneTransactionAndKeepsOptions := by
  intro s t h
  obtain ⟨hschedule, hcfg⟩ := State.transact_keeps h
  exact ⟨hschedule.trans s.nextTransaction_schedule, hcfg.trans s.nextTransaction_cfg⟩

end Machine
end Sys2Proof

/-! The invariant of every step (20_memory.md R40; 60_exceptions.md R122): each of its three clauses for an
instruction, then for a cycle, then for the other transactions. -/

namespace Sys2Proof
namespace Machine

variable {i : Instr} {s t : State}

/-! ### Memory's canonical form -/

/-- The first clause of the invariant. -/
def State.MemWf (s : State) : Prop := Memory.wf s.cfg.font s.mem

theorem State.MemWf.of_same (h : s.MemWf) (hc : t.cfg = s.cfg) (hm : t.mem = s.mem) : t.MemWf := by
  unfold State.MemWf; rw [hc, hm]; exact h

theorem State.push_mem {w : Word} (h : s.push w = some t) : t.mem = s.mem := by
  unfold State.push at h
  split at h
  · cases h; rfl
  · cases h

theorem State.pop_mem {w : Word} (h : s.pop = some (w, t)) : t.mem = s.mem := by
  unfold State.pop at h
  split at h
  · cases h
  · cases h; rfl

theorem execRet_mem {ign : Nibble} (h : execRet ign s = .next t) : t.mem = s.mem := by
  cases hp : s.pop with
  | none => rw [execRet_of_pop_eq_none hp] at h; cases h; rfl
  | some p => rw [execRet_of_pop_eq_some hp] at h; cases h; exact (State.setPc_mem p.2 _).trans (State.pop_mem hp)

theorem execCall_mem {nnn : Addr} (h : execCall nnn s = .next t) : t.mem = s.mem := by
  cases hp : s.push s.pc with
  | none => rw [execCall_of_push_eq_none hp] at h; cases h; rfl
  | some u => rw [execCall_of_push_eq_some hp] at h; cases h; exact (State.setPc_mem u _).trans (State.push_mem hp)

theorem execAddI_mem {x : RegIx} (h : execAddI x s = .next t) : t.mem = s.mem := by
  cases h; split <;> rfl

/-- FX33 and FX55 write bytes, which keeps the form; the other instructions leave the list of cells as it is. -/
theorem exec_memWf (h : exec i s = .next t) (hs : s.MemWf) : t.MemWf := by
  have hkeep (hm : t.mem = s.mem) : t.MemWf := hs.of_same (exec_same_of_notMem (e := .cfg) h (by decide)) hm
  cases i with
  | ldB _ => cases h; exact State.writeByte_wf (State.writeByte_wf (State.writeByte_wf hs _ _) _ _) _ _
  | stRegs x =>
    cases h
    exact State.MemWf.of_same (State.storeRegsFrom_wf _ 0 hs) (State.bumpI_cfg _ x) (State.bumpI_mem _ x)
  | ldRegs x => cases h; exact hkeep ((State.bumpI_mem _ x).trans (State.loadRegsFrom_mem _ 0 s))
  | ret _ => exact hkeep (execRet_mem h)
  | call _ => exact hkeep (execCall_mem h)
  | addI _ => exact hkeep (execAddI_mem h)
  | orReg _ _ | andReg _ _ | xorReg _ _ => cases h; exact hkeep (State.setVThenReset_mem s _ _)
  | seImm _ _ | sneImm _ _ | seReg _ _ _ | sneReg _ _ _ | skp _ | sknp _ => cases h; exact hkeep (State.skipIf_mem s _)
  | _ => cases h; exact hkeep rfl

theorem State.fetchAndRun_memWf (h : s.fetchAndRun = .next t) (hs : s.MemWf) : t.MemWf := by
  rcases State.fetchAndRun_cases h with ⟨i, _, hx⟩ | ⟨_, _, rfl⟩
  · exact exec_memWf (s := s.advance) hx hs
  · exact hs

theorem State.applyLoad_memWf (hs : s.MemWf) (a : Word) (b : Byte) : (s.applyLoad a b).MemWf := by
  unfold State.applyLoad
  split
  · exact State.writeByte_wf hs a b
  · exact hs

/-! ### The channel -/

/-- The second clause of the invariant. -/
def State.DiagLegit (s : State) : Prop := ∀ e ∈ s.diag, e.legit

theorem State.DiagLegit.of_appends {a op : Word} (hs : s.DiagLegit) (h : AppendsAtMost a op s t) : t.DiagLegit := by
  rcases h with h | ⟨e, h, _, _, he⟩
  · unfold State.DiagLegit; rw [h]; exact hs
  · intro d hd
    rw [h, List.mem_append, List.mem_singleton] at hd
    rcases hd with hd | rfl
    · exact hs d hd
    · exact he

/-! ### A fresh machine -/

section Fresh
variable (h : s.freshWhileLoading)
include h

theorem State.freshWhileLoading.takeTransaction (rest : List Transaction) :
    ({ s with schedule := rest } : State).freshWhileLoading :=
  fun hl => congrArg (fun u : State => { u with schedule := rest }) (h hl)

theorem State.freshWhileLoading.applyKeys (lines : Word) : (s.applyKeys lines).freshWhileLoading :=
  fun hl => congrArg (fun u : State => u.applyKeys lines) (h hl)

theorem State.freshWhileLoading.applyAck : s.applyAck.freshWhileLoading :=
  fun hl => congrArg State.applyAck (h hl)

/-- A fresh machine's timers are 0, and a tick leaves a zero timer at 0. -/
theorem State.freshWhileLoading.applyTick : s.applyTick.freshWhileLoading :=
  fun hl => congrArg State.applyTick (h hl)

theorem State.freshWhileLoading.applyLoad (a : Word) (b : Byte) : (s.applyLoad a b).freshWhileLoading := by
  unfold State.applyLoad
  split
  · exact fun hl => congrArg (fun u : State => { u with mem := (s.writeByte a b).mem }) (h hl)
  · exact h

/-- A fresh machine is not in key-wait. -/
theorem State.freshWhileLoading.wait (hl : s.loadWindow = true) : s.wait = false := congrArg State.wait (h hl)

end Fresh

theorem State.resetWith_fresh (c : Config.Options) : (State.resetWith c).freshWhileLoading := fun _ => rfl

theorem State.applyReset_fresh (s : State) : s.applyReset.freshWhileLoading := fun _ => rfl

/-! ### Every step -/

/-- Settles O16: the reset state lists no cell and no event, and is itself. -/
theorem resetMeetsTheInvariant : Obligations.ResetMeetsTheInvariant := by
  have h (c : Config.Options) : (State.resetWith c).Inv := ⟨State.resetWith_wf c, nofun, State.resetWith_fresh c⟩
  exact ⟨h _, h⟩

/-- A fetch closes the load window, so the third clause holds after it whatever ran before. -/
theorem State.fetchAndRun_inv (h : s.fetchAndRun = .next t) (hm : s.MemWf) (hd : s.DiagLegit) : t.Inv := by
  refine ⟨State.fetchAndRun_memWf h hm, hd.of_appends (State.fetchAndRun_appends h), fun hl => ?_⟩
  rw [State.fetchAndRun_loadWindow h] at hl; cases hl

/-- A suspended cycle is in key-wait, where the load window is closed already. -/
theorem State.cycle_inv (h : s.cycle = .next t) (hm : s.MemWf) (hd : s.DiagLegit)
    (hwait : s.loadWindow = true → s.wait = false) : t.Inv := by
  rcases State.cycle_cases h with ⟨rfl, hw, _⟩ | ⟨_, hf⟩ | ⟨k, _, _, hf⟩
  · refine ⟨hm, hd, fun hl => ?_⟩
    rw [hwait hl] at hw; cases hw
  · exact State.fetchAndRun_inv hf hm hd
  · exact State.fetchAndRun_inv (s := s.leaveWait k) hf hm hd

theorem State.transact_inv {tr : Transaction} (h : s.transact tr = .next t) (hs : s.Inv) : t.Inv := by
  obtain ⟨hm, hd, hf⟩ := hs
  cases tr with
  | reset => cases h; exact ⟨State.resetWith_wf _, nofun, s.applyReset_fresh⟩
  | load a b =>
    cases h
    refine ⟨State.applyLoad_memWf hm a b, ?_, hf.applyLoad a b⟩
    rw [State.applyLoad_diag]; exact hd
  | keysIn lines => cases h; exact ⟨hm, hd, hf.applyKeys lines⟩
  | step r => exact State.cycle_inv (s := s.presentRand r) h hm hd hf.wait
  | tick => cases h; exact ⟨hm, hd, hf.applyTick⟩
  | redrawAck => cases h; exact ⟨hm, hd, hf.applyAck⟩

theorem State.nextTransaction_inv (hs : s.Inv) : s.nextTransaction.2.Inv := by
  unfold State.nextTransaction
  split
  · exact hs
  · obtain ⟨hm, hd, hf⟩ := hs
    exact ⟨hm, hd, hf.takeTransaction _⟩

/-- Settles O15: taking the transaction off the schedule keeps the invariant, and so does every transaction. -/
theorem everyStepKeepsTheInvariant : Obligations.EveryStepKeepsTheInvariant :=
  fun _ _ hs h => State.transact_inv h (State.nextTransaction_inv hs)

end Machine
end Sys2Proof

/-! ST, REDRAW and DIAG influence nothing (10_state.md R19, R22, R26, R30): every operation does the same to a state
and to that state with the three outputs blanked. -/

namespace Sys2Proof
namespace Machine

/-- `f` answers from `s` and from `s` without its outputs, with states that differ in no more than outputs. -/
def IgnoresOutputs (f : State → Host.Outcome State Fault Refusal) (s : State) : Prop :=
  ∃ t u, f s = .next t ∧ f s.blind = .next u ∧ t.blind = u.blind

/-! ### The named updates -/

theorem State.blind_skipIf (s : State) (c : Bool) : (s.skipIf c).blind = (s.blind.skipIf c).blind := by
  cases c <;> rfl

theorem State.blind_setVThenReset (s : State) (x : RegIx) (b : Byte) :
    (s.setVThenReset x b).blind = (s.blind.setVThenReset x b).blind := by
  unfold State.setVThenReset
  rw [apply_ite State.blind, apply_ite State.blind]; rfl

theorem State.blind_bumpI (s : State) (x : RegIx) : (s.bumpI x).blind = s.blind.bumpI x := by
  unfold State.bumpI
  rw [apply_ite State.blind]; rfl

theorem State.blind_applyLoad (s : State) (a : Word) (b : Byte) :
    (s.applyLoad a b).blind = (s.blind.applyLoad a b).blind := by
  unfold State.applyLoad
  rw [apply_ite State.blind, apply_ite State.blind]; rfl

theorem State.pop_blind (s : State) : s.blind.pop = s.pop.map fun p => (p.1, p.2.blind) := by
  unfold State.pop
  rw [apply_dite (Option.map _)]; rfl

theorem State.push_blind (s : State) (w : Word) : s.blind.push w = (s.push w).map State.blind := by
  unfold State.push
  rw [apply_dite (Option.map _)]; rfl

theorem State.blind_storeRegsFrom (k n : Nat) (s : State) :
    (s.storeRegsFrom k n).blind = s.blind.storeRegsFrom k n := by
  induction n generalizing k s with
  | zero => rfl
  | succ n ih => exact ih (k + 1) _

theorem State.blind_loadRegsFrom (k n : Nat) (s : State) :
    (s.loadRegsFrom k n).blind = s.blind.loadRegsFrom k n := by
  induction n generalizing k s with
  | zero => rfl
  | succ n ih => exact ih (k + 1) _

theorem State.drawRows_blind (s : State) (x0 y0 n k : Nat) (r : Raster) :
    s.blind.drawRows x0 y0 n k r = s.drawRows x0 y0 n k r := by
  induction n generalizing k r with
  | zero => rfl
  | succ n ih => simp only [State.drawRows, ih]; rfl

/-! ### Instructions -/

theorem execRet_ignoresOutputs (ign : Nibble) (s : State) : IgnoresOutputs (execRet ign) s := by
  have hb := s.pop_blind
  cases hp : s.pop with
  | none =>
    rw [hp] at hb
    exact ⟨_, _, execRet_of_pop_eq_none hp, execRet_of_pop_eq_none hb, rfl⟩
  | some p =>
    rw [hp] at hb
    exact ⟨_, _, execRet_of_pop_eq_some hp, execRet_of_pop_eq_some hb, rfl⟩

theorem execCall_ignoresOutputs (nnn : Addr) (s : State) : IgnoresOutputs (execCall nnn) s := by
  have hb := s.push_blind s.pc
  cases hp : s.push s.pc with
  | none =>
    rw [hp] at hb
    exact ⟨_, _, execCall_of_push_eq_none hp, execCall_of_push_eq_none (s := s.blind) hb, rfl⟩
  | some u =>
    rw [hp] at hb
    exact ⟨_, _, execCall_of_push_eq_some hp, execCall_of_push_eq_some (s := s.blind) hb, rfl⟩

theorem execAddI_ignoresOutputs (x : RegIx) (s : State) : IgnoresOutputs (execAddI x) s := by
  refine ⟨_, _, rfl, rfl, ?_⟩
  rw [apply_ite State.blind, apply_ite State.blind]; rfl

theorem exec_ignoresOutputs (i : Instr) (s : State) : IgnoresOutputs (exec i) s := by
  cases i with
  | ret ign => exact execRet_ignoresOutputs ign s
  | call nnn => exact execCall_ignoresOutputs nnn s
  | addI x => exact execAddI_ignoresOutputs x s
  | seImm _ _ | sneImm _ _ | seReg _ _ _ | sneReg _ _ _ | skp _ | sknp _ =>
    exact ⟨_, _, rfl, rfl, State.blind_skipIf s _⟩
  | orReg _ _ | andReg _ _ | xorReg _ _ => exact ⟨_, _, rfl, rfl, State.blind_setVThenReset s _ _⟩
  | drw x y n =>
    refine ⟨_, _, rfl, rfl, ?_⟩
    rw [State.drawRows_blind]; rfl
  | stRegs x =>
    refine ⟨_, _, rfl, rfl, ?_⟩
    rw [State.blind_bumpI, State.blind_bumpI, ← State.blind_storeRegsFrom]; rfl
  | ldRegs x =>
    refine ⟨_, _, rfl, rfl, ?_⟩
    rw [State.blind_bumpI, State.blind_bumpI, ← State.blind_loadRegsFrom]; rfl
  | _ => exact ⟨_, _, rfl, rfl, rfl⟩

/-! ### Cycles, transactions and steps -/

theorem State.fetchAndRun_ignoresOutputs (s : State) : IgnoresOutputs State.fetchAndRun s := by
  cases hd : decodeWord s.fetchWord with
  | ok i =>
    obtain ⟨t, u, ht, hu, htu⟩ := exec_ignoresOutputs i s.advance
    exact ⟨t, u, (State.fetchAndRun_ok hd).trans ht, (State.fetchAndRun_ok (s := s.blind) hd).trans hu, htu⟩
  | error e =>
    exact ⟨_, _, State.fetchAndRun_error hd, State.fetchAndRun_error (s := s.blind) hd, rfl⟩

theorem State.cycle_ignoresOutputs (s : State) : IgnoresOutputs State.cycle s := by
  rcases State.gate_cases s with ⟨hw, _⟩ | ⟨hw, hk, _⟩ | ⟨k, hw, hk, _⟩
  · obtain ⟨t, u, ht, hu, htu⟩ := State.fetchAndRun_ignoresOutputs s
    exact ⟨t, u, (State.cycle_idle hw).trans ht, (State.cycle_idle (s := s.blind) hw).trans hu, htu⟩
  · exact ⟨s, s.blind, State.cycle_suspended hw hk, State.cycle_suspended (s := s.blind) hw hk, rfl⟩
  · obtain ⟨t, u, ht, hu, htu⟩ := State.fetchAndRun_ignoresOutputs (s.leaveWait k)
    exact ⟨t, u, (State.cycle_pressed hw hk).trans ht, (State.cycle_pressed (s := s.blind) hw hk).trans hu, htu⟩

theorem State.transact_ignoresOutputs (s : State) (tr : Transaction) :
    IgnoresOutputs (fun u => State.transact u tr) s := by
  cases tr with
  | step r => exact State.cycle_ignoresOutputs (s.presentRand r)
  | load a b => exact ⟨_, _, rfl, rfl, State.blind_applyLoad s a b⟩
  | reset | keysIn _ | tick | redrawAck => exact ⟨_, _, rfl, rfl, rfl⟩

theorem State.nextTransaction_blind (s : State) :
    s.blind.nextTransaction = (s.nextTransaction.1, s.nextTransaction.2.blind) := by
  have hb : s.blind.schedule = s.schedule := rfl
  unfold State.nextTransaction
  rw [hb]
  cases s.schedule <;> rfl

theorem step_ignoresOutputs (s : State) : IgnoresOutputs step s := by
  obtain ⟨t, u, ht, hu, htu⟩ := State.transact_ignoresOutputs s.nextTransaction.2 s.nextTransaction.1
  refine ⟨t, u, ht, ?_, htu⟩
  rw [step, State.nextTransaction_blind]; exact hu

/-- Settles O17: both steps agree, up to outputs, with the step from the state both are without outputs. -/
theorem outputsInfluenceNothing : Obligations.OutputsInfluenceNothing := by
  intro s t hst
  obtain ⟨s', u, hs, hu, hsu⟩ := step_ignoresOutputs s
  obtain ⟨t', w, ht, hw, htw⟩ := step_ignoresOutputs t
  rw [hst, hw] at hu
  cases hu
  exact ⟨s', t', hs, ht, hsu.trans htw.symm⟩

end Machine
end Sys2Proof

/-! The sprite draw cell by cell (46_draw.md R111-R120): the rasterizer's loops toggle what the closed form
`State.spriteBit` names, and the results on a second draw and on clipping follow from that form. -/

namespace Sys2Proof
namespace Machine

theorem flagByte_eq_zero_or_one (b : Bool) : flagByte b = 0x00#8 ∨ flagByte b = 0x01#8 := by
  cases b
  · exact .inl rfl
  · exact .inr rfl

theorem flagByte_eq_one {b : Bool} : flagByte b = 0x01#8 ↔ b = true := by cases b <;> decide

/-- No column of the sprite crosses the right edge before the cell (x, _) exactly when the cell is not left of the
start. -/
theorem add_colOffset_lt_iff {x0 x : Nat} (hx0 : x0 < 64) (hx : x < 64) : x0 + colOffset x0 x < 64 ↔ x0 ≤ x := by
  unfold colOffset; omega

/-- What all rows of a sprite toggle is the closed form. -/
theorem State.rowsBit_eq_spriteBit (s : State) {x0 x : Nat} (hx0 : x0 < 64) (hx : x < 64) (y0 n y : Nat) :
    s.rowsBit x0 y0 n 0 x y = s.spriteBit x0 y0 n x y := by
  have hcol : (x + Config.dispW - x0) % Config.dispW = colOffset x0 x := rfl
  have hrow : (y + Config.dispH - y0) % Config.dispH = rowOffset y0 y := rfl
  simp only [State.rowsBit, rowBit, State.spriteBit, hcol, hrow, add_colOffset_lt_iff hx0 hx, Nat.zero_le, Nat.zero_add,
    decide_true, Bool.true_and]
  rw [Bool.or_and_distrib_left]
  ac_rfl

/-- The display and the collision after the draw of DXYN. -/
def State.drawn (s : State) (x y : RegIx) (n : Nibble) : Raster :=
  s.drawRows (s.startCol x) (s.startRow y) n.toNat 0 { disp := s.disp, hit := false }

theorem exec_drw (x y : RegIx) (n : Nibble) (s : State) : exec (.drw x y n) s =
    .next (((s.setDisp (s.drawn x y n).disp).setVF (flagByte (s.drawn x y n).hit)).setRedraw true) := rfl

theorem State.startCol_lt (s : State) (x : RegIx) : s.startCol x < 64 := Nat.mod_lt _ (by decide)

theorem State.startRow_lt (s : State) (y : RegIx) : s.startRow y < 32 := Nat.mod_lt _ (by decide)

theorem State.cell_drawn (s : State) (x y : RegIx) (n : Nibble) {cx cy : Nat} (hx : cx < 64) (hy : cy < 32) :
    (s.drawn x y n).disp.cell cx cy =
      (s.disp.cell cx cy ^^ s.spriteBit (s.startCol x) (s.startRow y) n.toNat cx cy) := by
  have hn : n.toNat < 16 := n.isLt
  rw [State.drawn, State.cell_drawRows s _ _ _ (s.startCol_lt x) (s.startRow_lt y) hx hy (by omega),
    State.rowsBit_eq_spriteBit s (s.startCol_lt x) hx]

theorem State.hit_drawn (s : State) (x y : RegIx) (n : Nibble) :
    (s.drawn x y n).hit = true ↔ ∃ cx cy, cx < 64 ∧ cy < 32 ∧ s.disp.cell cx cy = true ∧
      s.spriteBit (s.startCol x) (s.startRow y) n.toNat cx cy = true := by
  have hn : n.toNat < 16 := n.isLt
  rw [State.drawn, State.hit_drawRows s _ _ _ (s.startCol_lt x) (s.startRow_lt y) (by omega)]
  simp only [Bool.false_eq_true, false_or]
  refine exists_congr fun cx => exists_congr fun cy => and_congr_right fun hx => ?_
  rw [State.rowsBit_eq_spriteBit s (s.startCol_lt x) hx]

/-- Settles O52: the cells and the collision of the drawn raster; VF, REDRAW and the frame are those of the three
updates. -/
theorem drawTogglesTheSpriteBits : Obligations.DrawTogglesTheSpriteBits := by
  refine ⟨encodes_row (.drw 0 0 0), fun x y n s => ⟨_, exec_drw x y n s, ?cells, ?others, ?flagBit, ?collision, rfl,
    ?frame⟩⟩
  case cells => exact fun cx cy hx hy => s.cell_drawn x y n hx hy
  case others => exact fun r hr => (State.getV_setVF _ r _).trans (if_neg hr)
  case flagBit =>
    rw [State.getV_setRedraw, State.getV_setVF, if_pos rfl]
    exact flagByte_eq_zero_or_one _
  case collision =>
    rw [State.getV_setRedraw, State.getV_setVF, if_pos rfl, flagByte_eq_one]
    exact s.hit_drawn x y n
  case frame =>
    exact (((Unchanged.setDisp s _).append (Unchanged.setVF _ _)).append (Unchanged.setRedraw _ _)).mono (by simp)

/-- The closed form reads only I, memory and the wrap option. -/
theorem State.spriteBit_congr {s t : State} (hi : t.i = s.i) (hc : t.cfg = s.cfg)
    (hm : ∀ a, t.readByte a = s.readByte a) (x0 y0 n x y : Nat) :
    t.spriteBit x0 y0 n x y = s.spriteBit x0 y0 n x y := by
  simp only [State.spriteBit, State.indexed, hi, hc, hm]

/-- Settles O53: the second draw toggles the same cells, so each is back, and a toggled cell was on before the second
draw exactly when it was off before the first. -/
theorem drawTwiceRestoresTheDisplay : Obligations.DrawTwiceRestoresTheDisplay := by
  intro x y n s hx hy
  obtain ⟨t, ht, hcell, hreg, -, -, -, hframe⟩ := drawTogglesTheSpriteBits.2 x y n s
  obtain ⟨u, hu, hcell2, -, -, hvf2, -, -⟩ := drawTogglesTheSpriteBits.2 x y n t
  have hbit (x0 y0 cx cy : Nat) : t.spriteBit x0 y0 n.toNat cx cy = s.spriteBit x0 y0 n.toNat cx cy :=
    State.spriteBit_congr (hframe .i (by decide)) (hframe .cfg (by decide)) (hframe .mem (by decide)) _ _ _ _ _
  simp only [hreg x hx, hreg y hy, hbit] at hcell2 hvf2
  refine ⟨t, u, ht, hu, fun cx cy hcx hcy => ?restored, hvf2.trans ?collision⟩
  case restored => rw [hcell2 cx cy hcx hcy, hcell cx cy hcx hcy, Bool.xor_assoc, Bool.xor_self, Bool.xor_false]
  case collision =>
    refine exists_congr fun cx => exists_congr fun cy => and_congr_right fun hcx => and_congr_right fun hcy =>
      and_congr_left fun hset => ?_
    rw [hcell cx cy hcx hcy, hset]
    simp

/-- Without wrap no bit falls left of the start column, above the start row, or past the 8 columns or the `n` rows. -/
theorem State.spriteBit_outside {s : State} (hw : s.cfg.displayWrap = false) {x0 y0 n x y : Nat} (hx0 : x0 < 64)
    (hy0 : y0 < 32) (hx : x < 64) (hy : y < 32) (h : x < x0 ∨ x0 + 8 ≤ x ∨ y < y0 ∨ y0 + n ≤ y) :
    s.spriteBit x0 y0 n x y = false := by
  have hout : ¬ ((x + 64 - x0) % 64 < 8 ∧ (y + 32 - y0) % 32 < n ∧ x0 ≤ x ∧ y0 ≤ y) := by omega
  simp only [State.spriteBit, hw, Bool.false_or]
  by_contra hset
  simp only [Bool.not_eq_false, Bool.and_eq_true, decide_eq_true_eq] at hset
  obtain ⟨⟨⟨hdx, hdy⟩, hxx, hyy⟩, -⟩ := hset
  exact hout ⟨hdx, hdy, hxx, hyy⟩

/-- Settles O54: a cell outside the rectangle is under no sprite bit, and a draw toggles by the sprite bit. -/
theorem clippedDrawStaysInItsRectangle : Obligations.ClippedDrawStaysInItsRectangle := by
  intro x y n s hw
  refine ⟨_, exec_drw x y n s, fun cx cy hcx hcy hout => (s.cell_drawn x y n hcx hcy).trans ?_⟩
  rw [State.spriteBit_outside hw (s.startCol_lt x) (s.startRow_lt y) hcx hcy hout, Bool.xor_false]

end Machine
end Sys2Proof

/-! The index register and the memory transfers (45_index_memory.md R105-R110; 20_memory.md R35, R43, R49). -/

namespace Sys2Proof
namespace Machine

variable {s t u : State}

/-! ### I and the font -/

/-- A register value has 8 bits, so widening it keeps its value. -/
@[simp] theorem toNat_wideOperand (b : Byte) : (wideOperand b).toNat = b.toNat :=
  BitVec.toNat_setWidth_of_le (by decide)

/-- The font address does not wrap: it is at most 0x050 + 5 * 255. -/
theorem toNat_glyphAddr (b : Byte) : (glyphAddr b).toNat = 0x050 + b.toNat * 5 := by
  have := b.isLt
  simp only [glyphAddr, BitVec.toNat_add, BitVec.toNat_mul, toNat_wideOperand, BitVec.toNat_ofNat]
  omega

theorem exec_ldI (nnn : Addr) (s : State) : exec (.ldI nnn) s = .next (s.setI (addrOperand nnn)) := rfl

theorem exec_ldF (x : RegIx) (s : State) : exec (.ldF x) s = .next (s.setI (glyphAddr (s.getV x))) := rfl

/-- Settles O44: each form is one write of I. -/
theorem indexLoadsSetI : Obligations.IndexLoadsSetI :=
  ⟨encodes_row (.ldI 0), encodes_row (.ldF 0),
    fun nnn s => ⟨_, exec_ldI nnn s, toNat_addrOperand nnn, Unchanged.setI s _⟩,
    fun x s => ⟨_, exec_ldF x s, toNat_glyphAddr _, Unchanged.setI s _⟩⟩

/-- Settles O51: I + j is the cell 0x050 + (5 d + j), which holds that byte of the font by hypothesis. -/
theorem glyphLookupReachesTheFont : Obligations.GlyphLookupReachesTheFont := by
  intro x s d j hfont hd
  refine ⟨_, exec_ldF x s, ?_⟩
  have hlt : 5 * d.val + j.val < 80 := by omega
  have haddr : glyphAddr (s.getV x) + BitVec.ofNat 16 j.val = 0x0050#16 + BitVec.ofNat 16 (5 * d.val + j.val) := by
    apply BitVec.eq_of_toNat_eq
    simp only [BitVec.toNat_add, toNat_glyphAddr, hd, BitVec.toNat_ofNat]
    omega
  rw [State.setI_i, State.readByte_setI, haddr, hfont ⟨5 * d.val + j.val, hlt⟩]
  exact Vector.getElem?_eq_getElem hlt

theorem exec_addI (x : RegIx) (s : State) : exec (.addI x) s = .next
    (if s.cfg.iOverflow then
      (s.setI (s.i + wideOperand (s.getV x))).setVF (flagByte (indexOverflowFlag s.i (s.getV x)))
    else s.setI (s.i + wideOperand (s.getV x))) := rfl

/-- A flag of a decidable condition, as the statements write it. -/
theorem flagByte_decide (p : Prop) [Decidable p] : flagByte (decide p) = if p then 0x01#8 else 0x00#8 := by
  unfold flagByte; simp only [decide_eq_true_eq]

/-- Settles O45: both ways of the option write I; only one writes VF after it. -/
theorem addIWrapsAndFlagsOnlyByOption : Obligations.AddIWrapsAndFlagsOnlyByOption := by
  refine ⟨encodes_row (.addI 0), fun x s => ?_⟩
  have hsum : (s.i + wideOperand (s.getV x)).toNat = (s.i.toNat + (s.getV x).toNat) % 65536 := by
    rw [BitVec.toNat_add, toNat_wideOperand]
  refine ⟨_, exec_addI x s, ?_⟩
  cases hq : s.cfg.iOverflow
  case false =>
    refine ⟨hsum, (Unchanged.setI s _).mono (by simp), fun r => ?_⟩
    simp
  case true =>
    refine ⟨hsum, (Unchanged.setI s _).append (Unchanged.setVF _ _), fun r => ?_⟩
    simp only [if_true, State.getV_setVF, State.getV_setI, indexOverflowFlag, flagByte_decide, and_true]

/-! ### FX33 -/

theorem exec_ldB (x : RegIx) (s : State) : exec (.ldB x) s = .next
    (((s.writeByte (s.indexed 0) (hundreds (s.getV x))).writeByte (s.indexed 1) (tens (s.getV x))).writeByte
      (s.indexed 2) (ones (s.getV x))) := rfl

theorem State.indexed_zero (s : State) : s.indexed 0 = s.i := BitVec.add_zero s.i

theorem State.cellsFromI_three (s : State) : s.cellsFromI 3 = [ea s.i, ea (s.i + 1#16), ea (s.i + 2#16)] := by
  rw [State.cellsFromI, show List.range 3 = [0, 1, 2] from rfl, List.map_cons, State.indexed_zero]; rfl

theorem toNat_digits (b : Byte) :
    (hundreds b).toNat = b.toNat / 100 ∧ (tens b).toNat = b.toNat / 10 % 10 ∧ (ones b).toNat = b.toNat % 10 := by
  have := b.isLt
  simp only [hundreds, tens, ones, BitVec.toNat_ofNat]
  omega

/-- Three bytes written at I, I + 1 and I + 2 are read back there: the cells differ. -/
theorem State.readByte_three_writes (s : State) (a b c : Byte) :
    let t := ((s.writeByte (s.indexed 0) a).writeByte (s.indexed 1) b).writeByte (s.indexed 2) c
    t.readByte (s.indexed 0) = a ∧ t.readByte (s.indexed 1) = b ∧ t.readByte (s.indexed 2) = c := by
  have hne (j k : Nat) (hj : j < 4096) (hk : k < 4096) (h : j ≠ k) : ea (s.indexed j) ≠ ea (s.indexed k) :=
    fun he => h (ea_indexed_inj hj hk he)
  simp only [State.readByte_writeByte, if_true, if_neg (hne 0 1 (by decide) (by decide) (by decide)),
    if_neg (hne 0 2 (by decide) (by decide) (by decide)), if_neg (hne 1 2 (by decide) (by decide) (by decide)),
    and_self]

/-- Settles O46: the three writes at different cells, and their frame. -/
theorem ldBStoresTheDecimalDigits : Obligations.LdBStoresTheDecimalDigits := by
  refine ⟨encodes_row (.ldB 0), fun x s => ⟨_, exec_ldB x s, ?_⟩⟩
  obtain ⟨h0, h1, h2⟩ := s.readByte_three_writes (hundreds (s.getV x)) (tens (s.getV x)) (ones (s.getV x))
  obtain ⟨hh, ht, ho⟩ := toNat_digits (s.getV x)
  have hi : s.i = s.indexed 0 := s.indexed_zero.symm
  refine ⟨?hundreds, (congrArg BitVec.toNat h1).trans ht, (congrArg BitVec.toNat h2).trans ho, ?bytes, ?frame⟩
  case hundreds => rw [hi]; exact (congrArg BitVec.toNat h0).trans hh
  case bytes =>
    rw [← s.cellsFromI_three]
    exact ((BytesUnchanged.writeByte s _ _).append (BytesUnchanged.writeByte _ _ _)).append
      (BytesUnchanged.writeByte _ _ _)
  case frame =>
    exact ((Unchanged.writeByte s _ _).trans (Unchanged.writeByte _ _ _)).trans (Unchanged.writeByte _ _ _)

/-! ### FX55 and FX65 -/

theorem exec_stRegs (x : RegIx) (s : State) :
    exec (.stRegs x) s = .next ((s.storeRegsFrom 0 (x.toNat + 1)).bumpI x) := rfl

theorem exec_ldRegs (x : RegIx) (s : State) :
    exec (.ldRegs x) s = .next ((s.loadRegsFrom 0 (x.toNat + 1)).bumpI x) := rfl

/-- I after a block transfer that left I and the options. -/
theorem State.toNat_i_bumpI (hi : t.i = s.i) (hc : t.cfg = s.cfg) (x : RegIx) : (t.bumpI x).i.toNat =
    if s.cfg.memIncI = true then (s.i.toNat + (x.toNat + 1)) % 65536 else s.i.toNat := by
  have hx : x.toNat < 16 := x.isLt
  rw [State.bumpI_i, State.indexed, hi, hc]
  split
  · rw [BitVec.toNat_add, BitVec.toNat_ofNat, Nat.mod_eq_of_lt (a := x.toNat + 1) (by omega)]
  · rfl

/-- Settles O47: the loop stores each register at its cell and nothing else, and then I moves. -/
theorem blockStoreWritesV0ToVx : Obligations.BlockStoreWritesV0ToVx := by
  refine ⟨encodes_row (.stRegs 0), fun x s => ?_⟩
  have hu := State.storeRegsFrom_unchanged (x.toNat + 1) 0 s
  refine ⟨_, exec_stRegs x s, fun k hk => ?stored, fun a ha => ?others, ?index, ?frame⟩
  case stored =>
    have hx : x.toNat < 16 := x.isLt
    rw [State.readByte_bumpI]
    exact (State.storeRegsFrom_stored _ 0 s (by omega) k.toNat (by omega) (by omega)).trans
      (by rw [BitVec.ofNat_toNat, BitVec.setWidth_eq])
  case others => rw [State.readByte_bumpI]; exact BytesUnchanged.storeRegs s _ a ha
  case index => exact State.toNat_i_bumpI (hu .i (by decide)) (hu .cfg (by decide)) x
  case frame => exact (hu.transferThenBump (by decide) x).mono (by split <;> simp)

/-- Settles O48: the loop loads each register from its cell and nothing else, and then I moves. -/
theorem blockLoadReadsV0ToVx : Obligations.BlockLoadReadsV0ToVx := by
  refine ⟨encodes_row (.ldRegs 0), fun x s => ?_⟩
  have hu := State.loadRegsFrom_unchanged (x.toNat + 1) 0 s
  refine ⟨_, exec_ldRegs x s, fun k => ?registers, ?index, ?frame⟩
  case registers =>
    have hx : x.toNat < 16 := x.isLt
    have hk : BitVec.ofNat 4 k.toNat = k := by rw [BitVec.ofNat_toNat, BitVec.setWidth_eq]
    rw [State.getV_bumpI]
    split
    case isTrue hle =>
      have h := State.loadRegsFrom_loaded (x.toNat + 1) 0 s (by omega) k.toNat (by omega) (by omega)
      rwa [hk] at h
    case isFalse hgt =>
      refine State.loadRegsFrom_other _ _ _ _ fun j _ hj hkj => hgt ?_
      have : k.toNat = j % 16 := by rw [hkj, BitVec.toNat_ofNat]
      omega
  case index => exact State.toNat_i_bumpI (hu .i (by decide)) (hu .cfg (by decide)) x
  case frame => exact (hu.transferThenBump (by decide) x).mono (by split <;> simp)

/-- Settles O49: the load reads each register's cell, where the store put that register. -/
theorem blockStoreThenLoadRestoresRegisters : Obligations.BlockStoreThenLoadRestoresRegisters := by
  intro x s
  obtain ⟨t, ht, hstored, -⟩ := blockStoreWritesV0ToVx.2 x s
  refine ⟨t, ht, fun u hi hm => ?_⟩
  obtain ⟨w, hw, hloaded, -⟩ := blockLoadReadsV0ToVx.2 x u
  refine ⟨w, hw, fun k hk => ?_⟩
  rw [hloaded k, if_pos hk, hi, hm, hstored k hk]

/-- A byte is read by its cell. -/
theorem State.readByte_of_ea_eq (s : State) {a b : Word} (h : ea a = ea b) : s.readByte a = s.readByte b := by
  unfold State.readByte; rw [h]

/-- Settles O50: the fetch reads the two bytes at PC, which the store left where it was, by their cells. -/
theorem nextFetchSeesTheBlockStore : Obligations.NextFetchSeesTheBlockStore := by
  intro x k s hk
  obtain ⟨t, ht, hstored, -, -, hframe⟩ := blockStoreWritesV0ToVx.2 x s
  have hpc : t.pc = s.pc := hframe .pc (by decide)
  refine ⟨t, ht, fun h => ?high, fun h => ?low⟩
  case high => rw [State.fetchWord, highByte_composeWord, hpc, ← t.readByte_of_ea_eq h, hstored k hk]
  case low => rw [State.fetchWord, lowByte_composeWord, hpc, ← t.readByte_of_ea_eq h, hstored k hk]

end Machine
end Sys2Proof

/-! The host's transactions other than a cycle (10_state.md R31; 70_reset_and_hazards.md R139, R140; 60_exceptions.md
R132; 20_memory.md R40). -/

namespace Sys2Proof
namespace Machine

variable {s : State} {rest : List Transaction}

theorem Unchanged.takeTransaction (s : State) (rest : List Transaction) :
    Unchanged [.schedule] s { s with schedule := rest } := by
  intro e he
  cases e with
  | schedule => simp at he
  | v | mem => exact fun _ => rfl
  | _ => rfl

/-! ### Reset -/

theorem toNat_ea (a : Word) : (ea a).toNat = a.toNat % 4096 := by
  simp only [ea, BitVec.extractLsb'_toNat, Nat.shiftRight_zero]

/-- Nothing is listed after a reset, so every byte reads as the reset content of its cell. -/
theorem State.readByte_applyReset (s : State) (a : Word) :
    s.applyReset.readByte a = Memory.unlisted s.cfg.font (ea a).toNat := rfl

theorem Memory.unlisted_font (font : Config.Font) (j : Fin 80) :
    Memory.unlisted font (0x050 + j.val) = font[j.val] := by
  have h : Config.fontBase ≤ 0x050 + j.val ∧ 0x050 + j.val < Config.fontBase + Config.fontSize := by
    have := j.isLt
    simp only [Config.fontBase, Config.fontSize]; omega
  simp only [Memory.unlisted, dif_pos h, Config.fontBase, Nat.add_sub_cancel_left]

theorem Memory.unlisted_outside {a : Nat} (font : Config.Font) (h : a < 0x050 ∨ 0x0A0 ≤ a) :
    Memory.unlisted font a = 0x00#8 :=
  dif_neg (by simp only [Config.fontBase, Config.fontSize]; omega)

theorem State.getV_applyReset (s : State) (r : RegIx) : s.applyReset.getV r = 0x00#8 := Vector.getElem_replicate _

theorem State.stack_applyReset (s : State) {k : Nat} (hk : k < 16) : s.applyReset.stack[k]? = some 0x0000#16 := by
  rw [State.applyReset, State.resetWith, Vector.getElem?_replicate, if_pos hk]

/-- Settles O18: the fields of the reset state, and the two kinds of cell memory reads as. -/
theorem resetInitialisesEveryElement : Obligations.ResetInitialisesEveryElement := by
  intro s rest hs
  let u : State := { s with schedule := rest }
  refine ⟨u.applyReset, step_of_reset hs, u.getV_applyReset, rfl, rfl, fun k hk => u.stack_applyReset hk, rfl, rfl, rfl,
    fun j => ?font, fun a ha => ?zero, fun x y _ _ => Display.cell_zero x y, rfl, rfl, rfl, rfl, rfl, rfl, rfl⟩
  case font =>
    have haddr : (ea (0x0050#16 + BitVec.ofNat 16 j.val)).toNat = 0x050 + j.val := by
      have := j.isLt
      simp only [toNat_ea, BitVec.toNat_add, BitVec.toNat_ofNat]; omega
    rw [State.readByte_applyReset, haddr]
    exact Memory.unlisted_font s.cfg.font j
  case zero =>
    rw [State.readByte_applyReset, toNat_ea]
    exact Memory.unlisted_outside _ (by omega)

/-- Settles O19: a reset overwrites all it does not keep, and what it keeps the first reset kept. -/
theorem resetTwiceIsResetOnce : Obligations.ResetTwiceIsResetOnce :=
  fun _ _ hs => ⟨_, step_of_reset hs, step_of_reset (rest := _) rfl⟩

/-! ### Tick -/

theorem toNat_ticked (b : Byte) : (ticked b).toNat = b.toNat - 1 := by
  unfold ticked
  split
  case isTrue h => rw [h]; rfl
  case isFalse h =>
    have hpos : b.toNat ≠ 0 := fun h0 => h (BitVec.eq_of_toNat_eq h0)
    have := b.isLt
    rw [BitVec.toNat_sub, BitVec.toNat_ofNat]; omega

/-- Settles O20: both timers tick, which in numbers is the truncated subtraction. -/
theorem tickDecrementsNonzeroTimers : Obligations.TickDecrementsNonzeroTimers := by
  intro s rest hs
  refine ⟨_, step_of_tick hs, toNat_ticked s.dt, toNat_ticked s.st, ?_⟩
  exact ((Unchanged.takeTransaction s rest).append (Unchanged.applyTick _)).mono (by simp)

/-! ### Load -/

theorem loadable_iff {a : Word} : loadable a = true ↔ a.toNat < 4096 := decide_eq_true_iff

theorem State.applyLoad_accepted (h : s.loadWindow = true) {a : Word} (ha : a.toNat < 4096) (b : Byte) :
    s.applyLoad a b = s.writeByte a b := by
  rw [State.applyLoad, h, loadable_iff.2 ha]; rfl

theorem State.applyLoad_refused {a : Word} (h : s.loadWindow = false ∨ 4096 ≤ a.toNat) (b : Byte) :
    s.applyLoad a b = s := by
  refine if_neg fun hok => ?_
  obtain ⟨hwindow, hcell⟩ := Bool.and_eq_true_iff.1 hok
  rcases h with h | h
  · rw [h] at hwindow; cases hwindow
  · exact absurd (loadable_iff.1 hcell) (by omega)

/-- Settles O21: an accepted load is one byte write, a refused one nothing. -/
theorem loadWritesOnlyInTheWindow : Obligations.LoadWritesOnlyInTheWindow := by
  intro s a b rest hs
  refine ⟨fun hwindow ha => ?accepted, fun h => ?refused⟩
  case accepted =>
    have hload := State.applyLoad_accepted (s := { s with schedule := rest }) hwindow ha b
    refine ⟨_, (step_of_load hs).trans (congrArg _ hload), ?byte, BytesUnchanged.writeByte _ a b, ?frame⟩
    case byte => rw [State.readByte_writeByte, if_pos rfl]
    case frame => exact ((Unchanged.takeTransaction s rest).append (Unchanged.writeByte _ _ _)).mono (by simp)
  case refused => rw [step_of_load hs, State.applyLoad_refused (s := { s with schedule := rest }) h]

/-! ### Key lines and acknowledgement -/

theorem Unchanged.applyKeys (s : State) (lines : Word) : Unchanged [.keys] s (s.applyKeys lines) := by
  intro e he; cases e <;> simp_all [Element.same]

/-- Settles O23: each is one update. -/
theorem keysInAndRedrawAckWriteTheirOwn : Obligations.KeysInAndRedrawAckWriteTheirOwn := by
  refine ⟨fun s lines rest hs => ⟨_, step_of_keysIn hs, rfl, ?keys⟩,
    fun s rest hs => ⟨_, step_of_redrawAck hs, rfl, ?ack⟩⟩
  case keys => exact ((Unchanged.takeTransaction s rest).append (Unchanged.applyKeys _ lines)).mono (by simp)
  case ack => exact ((Unchanged.takeTransaction s rest).append (Unchanged.setRedraw _ false)).mono (by simp)

end Machine
end Sys2Proof

/-! Control transfer and the stack (41_display_control.md R73-R79), the skips (42_skip.md R80-R84), the ALU (43_alu.md
R89-R96), the random byte and key-wait (44_rand_keys_timers.md R98-R102): each form is one or two named updates. -/

namespace Sys2Proof
namespace Machine

variable {i : Instr} {s t : State}

/-! ### The stack -/

theorem State.exists_pop (h : s.sp.val ≠ 0) : ∃ w u, s.pop = some (w, u) := by
  cases hp : s.pop with
  | none => exact absurd (State.pop_eq_none.1 hp) h
  | some p => exact ⟨p.1, p.2, rfl⟩

theorem State.exists_push (h : s.sp.val < 16) (w : Word) : ∃ u, s.push w = some u := by
  cases hp : s.push w with
  | none => exact absurd (State.push_eq_none.1 hp) h.ne
  | some u => exact ⟨u, rfl⟩

/-- Settles O28: the two ways of a pop. -/
theorem retPopsOrReportsUnderflow : Obligations.RetPopsOrReportsUnderflow := by
  refine ⟨encodes_row (.ret 0), fun ign s => ⟨fun h => ?pops, fun h => ?underflows⟩⟩
  case pops =>
    obtain ⟨w, u, hp⟩ := State.exists_pop h
    obtain ⟨hsp, htop, hu⟩ := State.pop_eq_some hp
    exact ⟨_, execRet_of_pop_eq_some hp, hsp, htop, (hu.append (Unchanged.setPc u w)).mono (by simp)⟩
  case underflows =>
    exact ⟨_, execRet_of_pop_eq_none (State.pop_eq_none.2 h), rfl, rfl,
      (Unchanged.setPc s _).append (Unchanged.report _ _ _ _)⟩

/-- Settles O30: the two ways of a push. -/
theorem callPushesOrReportsOverflow : Obligations.CallPushesOrReportsOverflow := by
  refine ⟨encodes_row (.call 0), fun nnn s => ⟨fun h => ?pushes, fun h => ?overflows⟩⟩
  case pushes =>
    obtain ⟨u, hp⟩ := State.exists_push h s.pc
    obtain ⟨hsp, htop, hothers, hu⟩ := State.push_eq_some hp
    exact ⟨_, execCall_of_push_eq_some hp, toNat_addrOperand nnn, hsp, htop, hothers,
      (hu.append (Unchanged.setPc u _)).mono (by simp)⟩
  case overflows =>
    exact ⟨_, execCall_of_push_eq_none (State.push_eq_none.2 h), rfl, Unchanged.report s _ _ _⟩

/-- Settles O32: the return pops the entry the call pushed. -/
theorem callThenRetComesBack : Obligations.CallThenRetComesBack := by
  intro nnn ign s h
  obtain ⟨u, hpush⟩ := State.exists_push h s.pc
  obtain ⟨husp, hutop, -, -⟩ := State.push_eq_some hpush
  let t := u.setPc (addrOperand nnn)
  have htsp : t.advance.sp.val = s.sp.val + 1 := husp
  obtain ⟨w, v, hpop⟩ := State.exists_pop (s := t.advance) (by omega)
  obtain ⟨hvsp, hvtop, -⟩ := State.pop_eq_some hpop
  have hsp : v.sp.val = s.sp.val := by omega
  refine ⟨t, _, execCall_of_push_eq_some hpush, execRet_of_pop_eq_some hpop, ?pc, Fin.ext hsp⟩
  case pc =>
    rw [hsp] at hvtop
    exact Option.some.inj (hvtop.symm.trans hutop)

/-! ### BNNN -/

theorem exec_jpV0 (nnn : Addr) (s : State) : exec (.jpV0 nnn) s = .next (s.setPc (s.v0Target nnn)) := rfl

/-- The sum is at most 0xFFF + 0xFF, which 16 bits hold. -/
theorem State.toNat_v0Target (s : State) (nnn : Addr) :
    (s.v0Target nnn).toNat = nnn.toNat + (s.getV 0x0#4).toNat := by
  have := nnn.isLt
  have := (s.getV 0x0#4).isLt
  rw [State.v0Target, BitVec.toNat_add, toNat_addrOperand, toNat_wideOperand]; omega

/-- Settles O31: one write of PC. -/
theorem jpV0AddsV0ToTheAddress : Obligations.JpV0AddsV0ToTheAddress :=
  ⟨encodes_row (.jpV0 0), fun nnn s => ⟨_, exec_jpV0 nnn s, s.toNat_v0Target nnn, Unchanged.setPc s _⟩⟩

/-! ### Skips -/

/-- An instruction that skips on a condition that means `p`. -/
theorem skips_if {c : Bool} {p : Prop} [Decidable p] (h : exec i s = .next (s.skipIf c)) (hc : c = true ↔ p) :
    ∃ t, exec i s = .next t ∧ t.pc = (if p then s.pc + 2#16 else s.pc) ∧ Unchanged [.pc] s t :=
  ⟨_, h, (s.skipIf_pc c).trans (if_congr hc rfl rfl), Unchanged.skipIf s c⟩

/-- An instruction that skips on a condition that means not `p`. -/
theorem skips_unless {c : Bool} {p : Prop} [Decidable p] (h : exec i s = .next (s.skipIf c)) (hc : c = true ↔ ¬ p) :
    ∃ t, exec i s = .next t ∧ t.pc = (if p then s.pc else s.pc + 2#16) ∧ Unchanged [.pc] s t := by
  obtain ⟨t, ht, hpc, hu⟩ := skips_if h hc
  exact ⟨t, ht, hpc.trans (ite_not p _ _), hu⟩

theorem exec_seImm (x : RegIx) (nn : Byte) (s : State) :
    exec (.seImm x nn) s = .next (s.skipIf (s.getV x == nn)) := rfl

theorem exec_sneImm (x : RegIx) (nn : Byte) (s : State) :
    exec (.sneImm x nn) s = .next (s.skipIf (s.getV x != nn)) := rfl

theorem exec_seReg (x y : RegIx) (ign : Nibble) (s : State) :
    exec (.seReg x y ign) s = .next (s.skipIf (s.getV x == s.getV y)) := rfl

theorem exec_sneReg (x y : RegIx) (ign : Nibble) (s : State) :
    exec (.sneReg x y ign) s = .next (s.skipIf (s.getV x != s.getV y)) := rfl

theorem exec_skp (x : RegIx) (s : State) : exec (.skp x) s = .next (s.skipIf (s.key (s.keyOperand x))) := rfl

theorem exec_sknp (x : RegIx) (s : State) : exec (.sknp x) s = .next (s.skipIf (!s.key (s.keyOperand x))) := rfl

/-- Settles O33: equality of bytes decides both skips. -/
theorem immediateSkipsCompareTheRegister : Obligations.ImmediateSkipsCompareTheRegister :=
  ⟨encodes_row (.seImm 0 0), encodes_row (.sneImm 0 0), fun x nn s =>
    ⟨skips_if (exec_seImm x nn s) beq_iff_eq, skips_unless (exec_sneImm x nn s) bne_iff_ne⟩⟩

/-- Settles O34: equality of the two registers decides both skips. -/
theorem registerSkipsCompareTwoRegisters : Obligations.RegisterSkipsCompareTwoRegisters :=
  ⟨encodes_row (.seReg 0 0 0), encodes_row (.sneReg 0 0 0), fun x y ign s =>
    ⟨skips_if (exec_seReg x y ign s) beq_iff_eq, skips_unless (exec_sneReg x y ign s) bne_iff_ne⟩⟩

/-- The line tested is that of the register's low nibble. -/
theorem State.key_keyOperand (s : State) (x : RegIx) :
    s.key (s.keyOperand x) = s.keys.getLsbD ((s.getV x).toNat % 16) := by
  rw [State.key, State.keyOperand, BitVec.extractLsb'_toNat, Nat.shiftRight_zero]

/-- Settles O35: the tested line decides both skips. -/
theorem keySkipsTestTheLowNibblesLine : Obligations.KeySkipsTestTheLowNibblesLine := by
  refine ⟨encodes_row (.skp 0), encodes_row (.sknp 0), fun x s =>
    ⟨skips_if (exec_skp x s) ?line, skips_unless (exec_sknp x s) ?noLine⟩⟩
  case line => rw [State.key_keyOperand]
  case noLine => rw [State.key_keyOperand, Bool.not_eq_true', Bool.not_eq_true]

/-! ### The ALU -/

/-- A form that writes `b` to VX and then resets VF under the option. -/
theorem writes_then_resets {x : RegIx} {b : Byte} (h : exec i s = .next (s.setVThenReset x b)) :
    ∃ t, exec i s = .next t ∧ Unchanged [.v] s t ∧ ∀ r, t.getV r =
      if r = 0xF#4 ∧ s.cfg.vfReset = true then 0x00#8 else if r = x then b else s.getV r :=
  ⟨_, h, Unchanged.setVThenReset s x b, fun r =>
    (s.getV_setVThenReset x r b).trans (if_congr and_comm rfl rfl)⟩

/-- A form that writes `b` to VX and then a flag that reads as `f`. -/
theorem writes_then_flags {x : RegIx} {b c f : Byte} {flag : Bool} (h : exec i s = .next (s.setVThenFlag x b flag))
    (hf : flagByte flag = f) (hb : b = c) :
    ∃ t, exec i s = .next t ∧ Unchanged [.v] s t ∧ ∀ r, t.getV r =
      if r = 0xF#4 then f else if r = x then c else s.getV r := by
  subst hf hb
  exact ⟨_, h, Unchanged.setVThenFlag s x b flag, fun r => s.getV_setVThenFlag x r b flag⟩

theorem exec_orReg (x y : RegIx) (s : State) :
    exec (.orReg x y) s = .next (s.setVThenReset x (s.getV x ||| s.getV y)) := rfl

theorem exec_andReg (x y : RegIx) (s : State) :
    exec (.andReg x y) s = .next (s.setVThenReset x (s.getV x &&& s.getV y)) := rfl

theorem exec_xorReg (x y : RegIx) (s : State) :
    exec (.xorReg x y) s = .next (s.setVThenReset x (s.getV x ^^^ s.getV y)) := rfl

/-- Settles O37: the three forms differ in the result only. -/
theorem logicWritesTheResultThenResetsVf : Obligations.LogicWritesTheResultThenResetsVf :=
  ⟨encodes_row (.orReg 0 0), encodes_row (.andReg 0 0), encodes_row (.xorReg 0 0), fun x y s =>
    ⟨writes_then_resets (exec_orReg x y s), writes_then_resets (exec_andReg x y s),
      writes_then_resets (exec_xorReg x y s)⟩⟩

theorem exec_addReg (x y : RegIx) (s : State) : exec (.addReg x y) s =
    .next (s.setVThenFlag x (s.getV x + s.getV y) (carryFlag (s.getV x) (s.getV y))) := rfl

theorem add_eq_ofNat (a b : Byte) : a + b = BitVec.ofNat 8 ((a.toNat + b.toNat) % 256) := by
  apply BitVec.eq_of_toNat_eq
  rw [BitVec.toNat_add, BitVec.toNat_ofNat]; omega

/-- Settles O38: the wrapped sum and the carry of the two operands. -/
theorem addWritesTheSumThenTheCarry : Obligations.AddWritesTheSumThenTheCarry :=
  ⟨encodes_row (.addReg 0 0), fun x y s =>
    writes_then_flags (exec_addReg x y s) (flagByte_decide _) (add_eq_ofNat _ _)⟩

theorem exec_sub (x y : RegIx) (s : State) : exec (.sub x y) s =
    .next (s.setVThenFlag x (s.getV x - s.getV y) (noBorrowFlag (s.getV x) (s.getV y))) := rfl

theorem exec_subn (x y : RegIx) (s : State) : exec (.subn x y) s =
    .next (s.setVThenFlag x (s.getV y - s.getV x) (noBorrowFlag (s.getV y) (s.getV x))) := rfl

theorem sub_eq_ofNat (a b : Byte) : a - b = BitVec.ofNat 8 ((256 + a.toNat - b.toNat) % 256) := by
  have := b.isLt
  apply BitVec.eq_of_toNat_eq
  rw [BitVec.toNat_sub, BitVec.toNat_ofNat]; omega

/-- Settles O39: the wrapped difference and the strict comparison, of the operands either way round. -/
theorem subtractionsWriteTheDifferenceThenNoBorrow : Obligations.SubtractionsWriteTheDifferenceThenNoBorrow :=
  ⟨encodes_row (.sub 0 0), encodes_row (.subn 0 0), fun x y s =>
    ⟨writes_then_flags (exec_sub x y s) (flagByte_decide _) (sub_eq_ofNat _ _),
      writes_then_flags (exec_subn x y s) (flagByte_decide _) (sub_eq_ofNat _ _)⟩⟩

theorem exec_shr (x y : RegIx) (s : State) : exec (.shr x y) s =
    .next (s.setVThenFlag x (s.shiftSource x y >>> 1) (lowBit (s.shiftSource x y))) := rfl

theorem exec_shl (x y : RegIx) (s : State) : exec (.shl x y) s =
    .next (s.setVThenFlag x (s.shiftSource x y <<< 1) (highBit (s.shiftSource x y))) := rfl

theorem State.toNat_shiftSource (s : State) (x y : RegIx) : (s.shiftSource x y).toNat =
    if s.cfg.shiftCopy = true then (s.getV y).toNat else (s.getV x).toNat := apply_ite BitVec.toNat _ _ _

theorem flagByte_lowBit (b : Byte) : flagByte (lowBit b) = BitVec.ofNat 8 (b.toNat % 2) := by
  have hbit : lowBit b = decide (b.toNat % 2 = 1) := Nat.testBit_zero _
  rw [hbit, flagByte_decide]
  rcases Nat.mod_two_eq_zero_or_one b.toNat with h | h <;> rw [h] <;> rfl

theorem flagByte_highBit (b : Byte) : flagByte (highBit b) = BitVec.ofNat 8 (b.toNat / 128) := by
  have hlt := b.isLt
  have hbit : highBit b = decide (128 ≤ b.toNat) := BitVec.msb_eq_decide b
  rw [hbit, flagByte_decide]
  split
  case isTrue h => rw [show b.toNat / 128 = 1 by omega]
  case isFalse h => rw [show b.toNat / 128 = 0 by omega]

theorem shiftRight_one_eq_ofNat (b : Byte) : b >>> 1 = BitVec.ofNat 8 (b.toNat / 2) := by
  have := b.isLt
  apply BitVec.eq_of_toNat_eq
  rw [BitVec.toNat_ushiftRight, BitVec.toNat_ofNat, Nat.shiftRight_eq_div_pow]; omega

theorem shiftLeft_one_eq_ofNat (b : Byte) : b <<< 1 = BitVec.ofNat 8 (2 * b.toNat % 256) := by
  apply BitVec.eq_of_toNat_eq
  rw [BitVec.toNat_shiftLeft, BitVec.toNat_ofNat, Nat.shiftLeft_eq]; omega

/-- Settles O40: the source is the operand the option chooses; the flag is the bit its shift moves out. -/
theorem shiftsWriteTheResultThenTheBitShiftedOut : Obligations.ShiftsWriteTheResultThenTheBitShiftedOut := by
  refine ⟨encodes_row (.shr 0 0), encodes_row (.shl 0 0), fun x y s src hsrc => ?_⟩
  obtain rfl := hsrc.trans (s.toNat_shiftSource x y).symm
  exact ⟨writes_then_flags (exec_shr x y s) (flagByte_lowBit _) (shiftRight_one_eq_ofNat _),
    writes_then_flags (exec_shl x y s) (flagByte_highBit _) (shiftLeft_one_eq_ofNat _)⟩

/-! ### The random byte and key-wait -/

theorem exec_rnd (x : RegIx) (nn : Byte) (s : State) :
    exec (.rnd x nn) s = .next (s.setV x (s.randByte &&& nn)).takeRand := rfl

/-- Settles O41: one register write with the byte masked, and the counter. -/
theorem rndMasksTheRandomByte : Obligations.RndMasksTheRandomByte := by
  refine ⟨encodes_row (.rnd 0 0), fun x nn s => ⟨_, exec_rnd x nn s, fun b hb => ?given, fun hb => ?free, rfl,
    RegsUnchanged.setV s x _, (Unchanged.setV s x _).append (Unchanged.takeRand _)⟩⟩
  all_goals rw [State.getV_takeRand, State.getV_setV_self, State.randByte, hb]; rfl

theorem exec_ldVxK (x : RegIx) (s : State) : exec (.ldVxK x) s = .next (s.enterWait x) := rfl

/-- Settles O43: one update of the latch and the pending register. -/
theorem ldKEntersKeyWait : Obligations.LdKEntersKeyWait :=
  ⟨encodes_row (.ldVxK 0), fun x s => ⟨_, exec_ldVxK x s, rfl, rfl, Unchanged.enterWait s x⟩⟩

end Machine
end Sys2Proof
